-- ==== Sys2Proof/Word.lean ====
section
/-! DEFINITION. The byte and word types of CFGSM (00_scope.md R9): every value is unsigned. -/

namespace Sys2Proof

/-- One byte of a frame, of the image or of a transport response (20_memory.md R60). -/
abbrev Byte := BitVec 8

/-- A 32-bit value: identity, status word, image length, error code, result detail (10_state.md R24 to R32). -/
abbrev Word := BitVec 32

end Sys2Proof
end

