-- ==== Sys2Proof/Syntax.lean ====
section
/-! DEFINITION. The instructions of CFGSM: one constructor per row of spec/opcode_table.json, the eight
operation codes of 30_encoding.md R91 and the eight device command frames of R95. -/

namespace Sys2Proof

/-- The eight device commands, in the order that numbers them 0 to 7 (30_encoding.md R95). -/
inductive Cmd where
  | activate
  | iscEnable
  | iscErase
  | iscDisable
  | readIdcode
  | lscInit
  | lscBitstreamBurst
  | lscReadStatus
deriving DecidableEq, Repr, Inhabited

/-- The rows of the opcode table. Only UPLOAD has an operand, the image length `op_len` of LEN_W bits, a natural
number because LEN_W is a parameter (30_encoding.md R92, 10_state.md R24); the image itself is a memory space (20_memory.md R62). A command frame has no
operand: frames are never modified or parameterised at run time (30_encoding.md R98). -/
inductive Instr where
  | queryState
  | reset
  | prepareErase
  | upload (opLen : Nat)
  | finalize
  | resetRetry
  | writeInit
  | reserved111
  | activate
  | iscEnable
  | iscErase
  | iscDisable
  | readIdcode
  | lscInit
  | lscBitstreamBurst
  | lscReadStatus
deriving DecidableEq, Repr, Inhabited

/-- The row of a device command. -/
def Instr.ofCmd : Cmd → Instr
  | .activate => .activate
  | .iscEnable => .iscEnable
  | .iscErase => .iscErase
  | .iscDisable => .iscDisable
  | .readIdcode => .readIdcode
  | .lscInit => .lscInit
  | .lscBitstreamBurst => .lscBitstreamBurst
  | .lscReadStatus => .lscReadStatus

/-- The command a row stands for; `none` for a host operation. -/
def Instr.cmd? : Instr → Option Cmd
  | .queryState => none
  | .reset => none
  | .prepareErase => none
  | .upload _ => none
  | .finalize => none
  | .resetRetry => none
  | .writeInit => none
  | .reserved111 => none
  | .activate => some .activate
  | .iscEnable => some .iscEnable
  | .iscErase => some .iscErase
  | .iscDisable => some .iscDisable
  | .readIdcode => some .readIdcode
  | .lscInit => some .lscInit
  | .lscBitstreamBurst => some .lscBitstreamBurst
  | .lscReadStatus => some .lscReadStatus

/-- The two formats of the opcode table (30_encoding.md R116). -/
inductive Format where
  | hostop
  | cmdframe
deriving DecidableEq, Repr, Inhabited

/-- The format of a row. -/
def Instr.format (i : Instr) : Format :=
  if i.cmd?.isSome then .cmdframe else .hostop

end Sys2Proof
end

