-- ==== Sys2Proof/Config.lean ====
section
/-! DEFINITION. The implementation parameters of 00_scope.md R6, all of them fields of `Config`, with the spec's
defaults in `Config.hardware`. Each OPEN parameter is there an opaque constant without a body, so that no proof can see
its value (notes/assumptions/3.md). -/

namespace Sys2Proof

/-- A command frame, byte 0 sent first; CMD_LEN bytes in well-formed parameters (30_encoding.md R96). -/
abbrev Frame := List Byte

/-- CMDROM: the eight command frames, immutable constants with no write path (20_memory.md R61). -/
structure CmdRom where
  activate : Frame
  iscEnable : Frame
  iscErase : Frame
  iscDisable : Frame
  readIdcode : Frame
  lscInit : Frame
  lscBitstreamBurst : Frame
  lscReadStatus : Frame
deriving DecidableEq, Repr, Inhabited

/-- RST_ON_ABORT: whether the reset line is released when ACTIVATE fails (41_reset.md R173). -/
inductive RstOnAbort where
  | hold
  | release
deriving DecidableEq, Repr, Inhabited

/-- The parameters (00_scope.md R6). Lengths of messages are 16-bit values because `len` is (30_encoding.md R102);
widths and delays are natural numbers. The constraints of R7 are `Config.wf`. -/
structure Config where
  /-- EXPECTED_IDCODE -/
  expectedIdcode : Word
  /-- ID_READ_LEN -/
  idReadLen : BitVec 16
  /-- STATUS_READ_LEN -/
  statusReadLen : BitVec 16
  /-- PREFIX_LEN -/
  prefixLen : Nat
  /-- CMD_LEN -/
  cmdLen : BitVec 16
  /-- CMD[c][0..] -/
  cmd : CmdRom
  /-- DONE_BIT -/
  doneBit : Fin 32
  /-- BUSY_BIT -/
  busyBit : Fin 32
  /-- FAIL_BIT -/
  failBit : Fin 32
  /-- T_RESET_SETTLE, in time-units -/
  tResetSettle : Nat
  /-- T_ERASE_PRE -/
  tErasePre : Nat
  /-- T_ERASE_SETTLE -/
  tEraseSettle : Nat
  /-- T_INIT_SETTLE -/
  tInitSettle : Nat
  /-- TIME_UNIT, in some unit of physical time; no rule of CFGSM reads it (notes/assumptions/16.md) -/
  timeUnit : Nat
  /-- MAX_RESET_ATTEMPTS -/
  maxResetAttempts : Nat
  /-- MAX_XFER -/
  maxXfer : BitVec 16
  /-- LEN_W: the width of `op_len` and LEN -/
  lenW : Nat
  /-- ERR_W: the width of the bus error code -/
  errW : Nat
  /-- DLY_W: the width of DLY -/
  dlyW : Nat
  /-- STATE_OPERATING -/
  stateOperating : Word
  /-- RST_POLARITY: the level of the reset pin while RSTL = 1 -/
  rstPolarity : Bool
  /-- RST_ON_ABORT -/
  rstOnAbort : RstOnAbort
  /-- SENTINEL: the byte of the defective device; no rule of CFGSM reads it (notes/assumptions/16.md) -/
  sentinel : Byte
deriving DecidableEq, Repr

/-- The OPEN bytes of the command frames (30_encoding.md R96). -/
opaque Config.openCmd : Cmd → Fin 4 → Byte

/-- The OPEN positions of the status flags: any placement of the 32 bits, of which the places of the first three
are DONE, BUSY and FAIL, so that every pairwise distinct triple is possible and no other (00_scope.md R7 (a)). -/
opaque Config.openStatusLayout : Equiv.Perm (Fin 32)

/-- The OPEN short delay less one: T_ERASE_PRE is 1 to 49 (42_prepare_erase.md R194). -/
opaque Config.openErasePreLessOne : Fin 49

/-- The OPEN duration of a time-unit (00_scope.md R6). -/
opaque Config.openTimeUnit : Nat

/-- The OPEN polarity of the reset pin (10_state.md R31). -/
opaque Config.openRstPolarity : Bool

/-- The OPEN treatment of the reset line when ACTIVATE fails (41_reset.md R173). -/
opaque Config.openRstOnAbort : RstOnAbort

/-- The OPEN byte that the defective device echoes (00_scope.md R6). -/
opaque Config.openSentinel : Byte

/-- A free value: the word that a read of another length than 4 bytes leaves in its register. The spec gives `le32` for
4 bytes alone (00_scope.md R9, notes/assumptions/22.md). -/
opaque Config.openWord : Cmd → List Byte → Word

/-- A frame of CMD_LEN = 4 OPEN bytes. -/
def Config.openFrame (c : Cmd) : Frame :=
  List.ofFn (Config.openCmd c)

/-- The parameters at their defaults, the OPEN ones left open (00_scope.md R6). -/
def Config.hardware : Config where
  expectedIdcode := 0x43002C01
  idReadLen := 4
  statusReadLen := 4
  prefixLen := 4
  cmdLen := 4
  cmd :=
    { activate := Config.openFrame .activate
      iscEnable := Config.openFrame .iscEnable
      iscErase := Config.openFrame .iscErase
      iscDisable := Config.openFrame .iscDisable
      readIdcode := Config.openFrame .readIdcode
      lscInit := Config.openFrame .lscInit
      lscBitstreamBurst := Config.openFrame .lscBitstreamBurst
      lscReadStatus := Config.openFrame .lscReadStatus }
  doneBit := Config.openStatusLayout 0
  busyBit := Config.openStatusLayout 1
  failBit := Config.openStatusLayout 2
  tResetSettle := 10
  tErasePre := Config.openErasePreLessOne.val + 1
  tEraseSettle := 50
  tInitSettle := 100
  timeUnit := Config.openTimeUnit
  maxResetAttempts := 2
  maxXfer := 65535
  lenW := 32
  errW := 32
  dlyW := 8
  stateOperating := 1
  rstPolarity := Config.openRstPolarity
  rstOnAbort := Config.openRstOnAbort
  sentinel := Config.openSentinel

end Sys2Proof
end

