-- ==== Sys2Proof/Decode.lean ====
section
/-! DEFINITION. Bytes to instruction and back (30_encoding.md R91, R95, R96, R116). A host operation is laid out
as its `op` byte and the bytes of `op_len`, a command frame as its own bytes (notes/assumptions/9.md). -/

namespace Sys2Proof

/-- The natural number of a byte sequence, byte 0 least significant (00_scope.md R9). -/
def leNat : List Byte → Nat
  | [] => 0
  | b :: bs => b.toNat + 256 * leNat bs

/-- `le32(b)` (00_scope.md R9). -/
def le32 (bs : List Byte) : Word :=
  BitVec.ofNat 32 (leNat bs)

/-- The `k` low bytes of `n`, byte 0 first. -/
def leBytes : Nat → Nat → List Byte
  | 0, _ => []
  | k + 1, n => BitVec.ofNat 8 n :: leBytes k (n / 256)

/-- `MemRead(CMDROM, (c,0), CMD_LEN)`: the frame of a command (20_memory.md R61). -/
def CmdRom.frame (rom : CmdRom) : Cmd → Frame
  | .activate => rom.activate
  | .iscEnable => rom.iscEnable
  | .iscErase => rom.iscErase
  | .iscDisable => rom.iscDisable
  | .readIdcode => rom.readIdcode
  | .lscInit => rom.lscInit
  | .lscBitstreamBurst => rom.lscBitstreamBurst
  | .lscReadStatus => rom.lscReadStatus

/-- The commands in number order (30_encoding.md R95). -/
def Cmd.all : List Cmd :=
  [.activate, .iscEnable, .iscErase, .iscDisable, .readIdcode, .lscInit, .lscBitstreamBurst, .lscReadStatus]

/-- The command number c of 30_encoding.md R95. -/
def Cmd.number : Cmd → Nat
  | .activate => 0
  | .iscEnable => 1
  | .iscErase => 2
  | .iscDisable => 3
  | .readIdcode => 4
  | .lscInit => 5
  | .lscBitstreamBurst => 6
  | .lscReadStatus => 7

/-- No two commands have the same frame. Nothing in CFGSM needs this (00_scope.md R7 (e)); a decoder of command
frames does (30_encoding.md R116). -/
def CmdRom.distinct (rom : CmdRom) : Bool :=
  decide ((Cmd.all.map rom.frame).Nodup)

/-- The value on a port of `w` lines. -/
def lines (w n : Nat) : Nat :=
  n % 2 ^ w

/-- The bytes that hold `op_len` (notes/assumptions/9.md): four at LEN_W = 32. -/
def Config.lenBytes (c : Config) : Nat :=
  (c.lenW + 7) / 8

/-- Why bytes are no instruction. -/
inductive DecodeError where
  /-- the format has another number of bytes -/
  | length (n : Nat)
  /-- the byte that carries the 3-bit `op` has a bit above bit 2 set -/
  | opHighBits (b : Byte)
  /-- the bytes that carry `op_len` hold a number of more than LEN_W bits -/
  | opLenHighBits (n : Nat)
  /-- the bytes are no frame of CMDROM (30_encoding.md R98) -/
  | unknownFrame (f : Frame)
deriving DecidableEq, Repr

/-- The operation a code on port `op` selects, with `op_len` as UPLOAD's operand and ignored by every other code
(30_encoding.md R91 to R93). -/
def decodeOp (op : BitVec 3) (opLen : Nat) : Instr :=
  match op.toNat with
  | 0 => .queryState
  | 1 => .reset
  | 2 => .prepareErase
  | 3 => .upload opLen
  | 4 => .finalize
  | 5 => .resetRetry
  | 6 => .writeInit
  | _ => .reserved111

/-- The command whose frame these bytes are, the lowest number first (30_encoding.md R95, R96). -/
def decodeFrame (rom : CmdRom) (f : Frame) : Except DecodeError Instr :=
  match Cmd.all.find? (fun c => rom.frame c == f) with
  | some c => .ok (Instr.ofCmd c)
  | none => .error (.unknownFrame f)

/-- The decoder, total on byte sequences of each format. -/
def decode (c : Config) : Format → List Byte → Except DecodeError Instr
  | .hostop, [] => .error (.length 0)
  | .hostop, b :: ls =>
    if ls.length ≠ c.lenBytes then .error (.length (ls.length + 1))
    else if 8 ≤ b.toNat then .error (.opHighBits b)
    else if 2 ^ c.lenW ≤ leNat ls then .error (.opLenHighBits (leNat ls))
    else .ok (decodeOp (b.setWidth 3) (leNat ls))
  | .cmdframe, f => decodeFrame c.cmd f

/-- The bytes of a host operation: its code and `op_len`. -/
def opBytes (c : Config) (op : BitVec 3) (opLen : Nat) : List Byte :=
  op.setWidth 8 :: leBytes c.lenBytes opLen

/-- The encoder, from the tables of 30_encoding.md R91 and R96; `op_len` is 0 where it is no operand. -/
def encode (c : Config) : Instr → List Byte
  | .queryState => opBytes c 0 0
  | .reset => opBytes c 1 0
  | .prepareErase => opBytes c 2 0
  | .upload opLen => opBytes c 3 opLen
  | .finalize => opBytes c 4 0
  | .resetRetry => opBytes c 5 0
  | .writeInit => opBytes c 6 0
  | .reserved111 => opBytes c 7 0
  | .activate => c.cmd.activate
  | .iscEnable => c.cmd.iscEnable
  | .iscErase => c.cmd.iscErase
  | .iscDisable => c.cmd.iscDisable
  | .readIdcode => c.cmd.readIdcode
  | .lscInit => c.cmd.lscInit
  | .lscBitstreamBurst => c.cmd.lscBitstreamBurst
  | .lscReadStatus => c.cmd.lscReadStatus

/-- The format of a table row of so many bits. -/
def tableFormat (nbits : Nat) : Format :=
  if nbits = 32 then .cmdframe else .hostop

/-- The bytes of an instruction word as opcode_table.json numbers its bits. A command frame is one 32-bit word whose
pattern has byte 0 leftmost, so byte 0 is bits 31..24 (30_encoding.md R116). A host operation has one byte in the table
and its operand bytes follow. -/
def tableBytes (c : Config) (nbits w : Nat) : List Byte :=
  match tableFormat nbits with
  | .cmdframe => (leBytes 4 w).reverse
  | .hostop => leBytes (1 + c.lenBytes) w

/-- The instruction the decoder reads from a word of the table, the frames being those of the hardware's CMDROM,
whose bytes are OPEN (30_encoding.md R116, notes/assumptions/8.md). -/
def decodeTableWord (nbits w : Nat) : Option Instr :=
  (decode Config.hardware (tableFormat nbits) (tableBytes Config.hardware nbits w)).toOption

end Sys2Proof
end

