-- ==== Sys2Proof/WellFormed.lean ====
section
/-! DEFINITION. What is well formed: an instruction, and a set of parameters (00_scope.md R7,
42_prepare_erase.md R194). -/

namespace Sys2Proof

/-- The operand of UPLOAD has LEN_W bits, so its admitted values are 0 to 2^LEN_W - 1 (30_encoding.md R92); no other
row has an operand. -/
def Instr.wf (c : Config) : Instr → Bool
  | .queryState => true
  | .reset => true
  | .prepareErase => true
  | .upload opLen => decide (opLen < 2 ^ c.lenW)
  | .finalize => true
  | .resetRetry => true
  | .writeInit => true
  | .reserved111 => true
  | .activate => true
  | .iscEnable => true
  | .iscErase => true
  | .iscDisable => true
  | .readIdcode => true
  | .lscInit => true
  | .lscBitstreamBurst => true
  | .lscReadStatus => true

/-- The three flag positions are pairwise distinct (00_scope.md R7 (a)). -/
def Config.statusBitsOk (c : Config) : Bool :=
  c.doneBit != c.busyBit && c.doneBit != c.failBit && c.busyBit != c.failBit

/-- MAX_XFER admits the chunk function: it is at least 1 (00_scope.md R7 (b)). -/
def Config.maxXferOk (c : Config) : Bool :=
  decide (1 ≤ c.maxXfer.toNat)

/-- MAX_XFER admits a whole configuration: the fixed messages, 4 bytes each at the defaults, fit
(00_scope.md R7 (b), 20_memory.md R69). -/
def Config.maxXferWhole (c : Config) : Bool :=
  decide (c.cmdLen.toNat ≤ c.maxXfer.toNat) && decide (c.idReadLen.toNat ≤ c.maxXfer.toNat) &&
    decide (c.statusReadLen.toNat ≤ c.maxXfer.toNat)

/-- At least one reset attempt is made (00_scope.md R7 (c)). -/
def Config.attemptsOk (c : Config) : Bool :=
  decide (1 ≤ c.maxResetAttempts)

/-- 1 <= T_ERASE_PRE < T_ERASE_SETTLE (42_prepare_erase.md R194). -/
def Config.erasePreOk (c : Config) : Bool :=
  decide (1 ≤ c.tErasePre) && decide (c.tErasePre < c.tEraseSettle)

/-- Every delay parameter is below 2^DLY_W (00_scope.md R7 (d)). -/
def Config.delaysOk (c : Config) : Bool :=
  decide (c.tResetSettle < 2 ^ c.dlyW) && decide (c.tErasePre < 2 ^ c.dlyW) &&
    decide (c.tEraseSettle < 2 ^ c.dlyW) && decide (c.tInitSettle < 2 ^ c.dlyW)

/-- Every frame has CMD_LEN bytes and the burst's, the prefix, PREFIX_LEN (00_scope.md R6). -/
def Config.framesOk (c : Config) : Bool :=
  Cmd.all.all (fun k => (c.cmd.frame k).length == c.cmdLen.toNat) && c.cmd.lscBitstreamBurst.length == c.prefixLen

/-- No message is empty (30_encoding.md R101). -/
def Config.lengthsOk (c : Config) : Bool :=
  decide (1 ≤ c.cmdLen.toNat) && decide (1 ≤ c.idReadLen.toNat) && decide (1 ≤ c.statusReadLen.toNat)

/-- TOT fits LEN_W + 1 bits and an error code the 32 bits of RES_DETAIL (10_state.md R24, R32,
notes/assumptions/25.md). -/
def Config.widthsOk (c : Config) : Bool :=
  decide (c.prefixLen ≤ 2 ^ c.lenW) && decide (c.errW ≤ 32)

/-- The constraints between parameters. -/
def Config.wf (c : Config) : Bool :=
  c.statusBitsOk && c.maxXferOk && c.attemptsOk && c.erasePreOk && c.delaysOk && c.framesOk && c.lengthsOk &&
    c.widthsOk

end Sys2Proof
end

