-- ==== Sys2Proof/Machine/State.lean ====
section
/-! DEFINITION. The state of CFGSM (10_state.md R20) and, beside it, what the step relation takes as parameter
and input (R35): the configuration and the input ports. Memory as canonical cells. Faults and refusals. -/

namespace Sys2Proof.Machine

/-- The micro-program addresses of 40_sequencer.md R131; the values 22 to 31 are never taken (10_state.md R21). -/
inductive Upc where
  | idle
  | rst0 | rst1 | rst2 | rst3 | rst4 | rst5 | rst6
  | ers0 | ers1 | ers2 | ers3 | ers4
  | upl0 | upl1 | upl2 | upl3 | upl4 | upl5
  | fin0 | fin1
  | qry0
deriving DecidableEq, Repr, Inhabited

/-- PH (10_state.md R21). -/
inductive Ph where
  | issue
  | wait
deriving DecidableEq, Repr, Inhabited

/-- The ghost ControllerState (10_state.md R36). -/
inductive Phase where
  | unreset
  | resetPending
  | identified
  | erased
  | streaming
  | verified
  | complete
  | failed
deriving DecidableEq, Repr, Inhabited

/-- RES_CODE; the codes 6 and 7 are never produced (30_encoding.md R108). -/
inductive ResCode where
  | ok
  | transport
  | identityMismatch
  | uploadIncomplete
  | allocation
  | illegalOp
deriving DecidableEq, Repr, Inhabited

/-- One message descriptor: three header fields and, for a write, the data bytes (30_encoding.md R100). -/
structure Msg where
  rd : Bool
  nostart : Bool
  len : BitVec 16
  data : List Byte
deriving DecidableEq, Repr, Inhabited

/-- A transport request, a list of message descriptors (30_encoding.md R100). -/
abbrev Request := List Msg

/-- A transport response; `code` is what stands on the ERR_W lines of an error code (20_memory.md R67,
30_encoding.md R107). -/
inductive Rsp where
  | ok (bytes : List Byte)
  | err (code : Nat)
deriving DecidableEq, Repr, Inhabited

/-- A byte space as address and byte pairs, addresses strictly rising (`Memory.wf`, Machine/Operands.lean). -/
abbrev Memory := List Host.Cell

/-- The levels on the input ports in one step (10_state.md R34). `rsp` is `xf_rsp_valid` with `xf_rsp`. -/
structure Ports where
  hwRst : Bool
  opValid : Bool
  op : BitVec 3
  opLen : Nat
  img : Memory
  allocOk : Bool
  rsp : Option Rsp
  tick : Bool
deriving DecidableEq, Repr, Inhabited

/-- The machine. `cfg`, `port` and `stim` are no state of CFGSM (10_state.md R35): they hold the parameters, the
input levels of this step and those of the steps to come, because a step is a function of the state alone
(notes/assumptions/2.md, 3.md). The other fields are the tuple of R20 in its order; a register whose width is a
parameter or is derived from one is a natural number, as 43_upload.md R216 allows (notes/assumptions/14.md). -/
structure State where
  cfg : Config
  port : Ports
  stim : List Ports
  upc : Upc
  ph : Ph
  opr : BitVec 3
  att : Nat
  len : Nat
  tot : Nat
  off : Nat
  cl : BitVec 16
  dly : Nat
  idr : Word
  sr : Word
  doneF : Bool
  busyF : Bool
  failF : Bool
  xfq : Option Request
  rstl : Bool
  resValid : Bool
  resCode : ResCode
  resDetail : Word
  loaded : Bool
  phase : Phase
deriving DecidableEq, Repr

/-- Why the machine stops. -/
inductive Fault where
  /-- Raised by the WAIT phase of a command (`xferDone`): the Transport answered `OK` with `got` bytes where the
  pending request reads `want`. The behaviour of CFGSM is then unspecified (20_memory.md R68,
  93_implementation_defined.md U14). Safe: the model stops where the hardware goes on in some way. -/
  | responseLength (want got : Nat)
deriving DecidableEq, Repr

/-- Why an instruction is given no meaning. -/
inductive Refusal where
  /-- Raised by an arm of `exec` whose instruction has no meaning yet; no arm is such. Safe. -/
  | notModelled (mnemonic : String)
deriving DecidableEq, Repr

/-- Input ports with no event on them. The level lines `op`, `opLen`, `img` and `allocOk` have at reset the values
of notes/assumptions/18.md. -/
def Ports.atReset : Ports where
  hwRst := false
  opValid := false
  op := 0
  opLen := 0
  img := []
  allocOk := false
  rsp := none
  tick := false

/-- The state after hardware reset (10_state.md R39). The working registers, which R39 leaves unspecified, are 0
(notes/assumptions/1.md). -/
def State.reset : State where
  cfg := Config.hardware
  port := Ports.atReset
  stim := []
  upc := .idle
  ph := .issue
  opr := 0
  att := 0
  len := 0
  tot := 0
  off := 0
  cl := 0
  dly := 0
  idr := 0
  sr := 0
  doneF := false
  busyF := false
  failF := false
  xfq := none
  rstl := false
  resValid := false
  resCode := .ok
  resDetail := 0
  loaded := false
  phase := .unreset

end Sys2Proof.Machine
end

