-- ==== Sys2Proof/Machine/Flags.lean ====
section
/-! DEFINITION. The status-bit decoder (43_upload.md R211) and the codes of results, phases and micro-addresses
(30_encoding.md R108, 10_state.md R36, 40_sequencer.md R131). -/

namespace Sys2Proof.Machine

/-- DONE_F, BUSY_F, FAIL_F of a status word: the bits at the three OPEN positions (43_upload.md R211). -/
def decodeStatus (c : Config) (sr : Word) : Bool × Bool × Bool :=
  (sr.getLsbD c.doneBit.val, sr.getLsbD c.busyBit.val, sr.getLsbD c.failBit.val)

/-- SR and the three flags, which are written together and by nothing else (10_state.md R29). -/
def setStatus (sr : Word) (s : State) : State :=
  let f := decodeStatus s.cfg sr
  { s with sr := sr, doneF := f.1, busyF := f.2.1, failF := f.2.2 }

/-- RES_CODE as the three bits of port `res_code` (30_encoding.md R108). -/
def ResCode.bits : ResCode → BitVec 3
  | .ok => 0
  | .transport => 1
  | .identityMismatch => 2
  | .uploadIncomplete => 3
  | .allocation => 4
  | .illegalOp => 5

/-- PHASE as three bits, in the source's order (10_state.md R36). -/
def Phase.bits : Phase → BitVec 3
  | .unreset => 0
  | .resetPending => 1
  | .identified => 2
  | .erased => 3
  | .streaming => 4
  | .verified => 5
  | .complete => 6
  | .failed => 7

/-- PH as one bit (10_state.md R21). -/
def Ph.bit : Ph → BitVec 1
  | .issue => 0
  | .wait => 1

/-- UPC as five bits (40_sequencer.md R131). -/
def Upc.bits : Upc → BitVec 5
  | .idle => 0
  | .rst0 => 1
  | .rst1 => 2
  | .rst2 => 3
  | .rst3 => 4
  | .rst4 => 5
  | .rst5 => 6
  | .rst6 => 7
  | .ers0 => 8
  | .ers1 => 9
  | .ers2 => 10
  | .ers3 => 11
  | .ers4 => 12
  | .upl0 => 13
  | .upl1 => 14
  | .upl2 => 15
  | .upl3 => 16
  | .upl4 => 17
  | .upl5 => 18
  | .fin0 => 19
  | .fin1 => 20
  | .qry0 => 21

end Sys2Proof.Machine
end

