-- ==== Sys2Proof/Machine/Operands.lean ====
section
/-! DEFINITION. What the micro-operations read: the image, the logical write W, and the three request shapes of
20_memory.md R66 with the chunk function of 43_upload.md R205 and its iterative form R207. -/

namespace Sys2Proof.Machine

/-- What an address that is not listed reads as (notes/assumptions/4.md). -/
def unlisted : Byte := 0

/-- One byte of a memory. -/
def Memory.read : Memory → Nat → Byte
  | [], _ => unlisted
  | (k, b) :: m, a => if k = a then b else Memory.read m a

/-- The byte at one address changed, the canonical form kept: writing what an unlisted address reads as removes
the entry. CFGSM itself writes no memory (20_memory.md R60); the host fills its image so. -/
def Memory.write : Memory → Nat → Byte → Memory
  | [], a, b => if b = unlisted then [] else [(a, b)]
  | (k, c) :: m, a, b =>
    if a < k then (if b = unlisted then (k, c) :: m else (a, b) :: (k, c) :: m)
    else if a = k then (if b = unlisted then m else (a, b) :: m)
    else (k, c) :: Memory.write m a b

/-- Bytes written at rising addresses from `a`. -/
def Memory.load (m : Memory) (a : Nat) : List Byte → Memory
  | [] => m
  | b :: bs => Memory.load (Memory.write m a b) (a + 1) bs

/-- The canonical form, from an address on: strictly rising, no entry equal to what an unlisted address reads as. -/
def Memory.wfFrom : Nat → Memory → Bool
  | _, [] => true
  | lo, (k, b) :: m => decide (lo ≤ k) && b != unlisted && Memory.wfFrom (k + 1) m

/-- The canonical form of a memory. -/
def Memory.wf (m : Memory) : Bool :=
  Memory.wfFrom 0 m

/-- The number of addresses of IMG: L < 2^LEN_W (20_memory.md R62). -/
def imgSpace (c : Config) : Nat :=
  2 ^ c.lenW

/-- Every listed address is inside the space IMG. -/
def Memory.inSpace (c : Config) (m : Memory) : Bool :=
  m.all (fun cell => decide (cell.1 < imgSpace c))

/-- `W[k]`: the burst prefix, then the image (20_memory.md R63). -/
def logicalByte (c : Config) (img : Memory) (k : Nat) : Byte :=
  if k < c.prefixLen then c.cmd.lscBitstreamBurst[k]?.getD 0 else Memory.read img (k - c.prefixLen)

/-- `n` bytes of a sequence W from offset `off`, in index order. -/
def logicalBytes (w : Nat → Byte) (off n : Nat) : List Byte :=
  (List.range n).map (fun j => w (off + j))

/-- A write message that carries a frame (30_encoding.md R101). -/
def frameMsg (c : Config) (k : Cmd) : Msg :=
  { rd := false, nostart := false, len := c.cmdLen, data := c.cmd.frame k }

/-- A read message of `n` bytes; its `nostart` is 0 (30_encoding.md R101). -/
def readMsg (n : BitVec 16) : Msg :=
  { rd := true, nostart := false, len := n, data := [] }

/-- WRITE(c) (20_memory.md R66). -/
def writeReq (c : Config) (k : Cmd) : Request :=
  [frameMsg c k]

/-- WRITE_READ(c, n) (20_memory.md R66). -/
def writeReadReq (c : Config) (k : Cmd) (n : BitVec 16) : Request :=
  [frameMsg c k, readMsg n]

/-- The word a read leaves in its register: `le32` of its 4 bytes (30_encoding.md R103, R105). For a read of another
length, which the spec does not assemble, it is a free value (notes/assumptions/22.md). -/
def readWord (k : Cmd) (bs : List Byte) : Word :=
  if bs.length = 4 then le32 bs else Config.openWord k bs

/-- The detail of a TRANSPORT error: the ERR_W bits of its code, unchanged (60_exceptions.md R271). -/
def errDetail (c : Config) (code : Nat) : Word :=
  BitVec.ofNat 32 (lines c.errW code)

/-- `ceil_div` (00_scope.md R9). -/
def ceilDiv (a b : Nat) : Nat :=
  (a + b - 1) / b

/-- The length of chunk `i` (43_upload.md R205). -/
def chunkLen (m t i : Nat) : Nat :=
  min m (t - i * m)

/-- Message `i` of the burst (43_upload.md R205). -/
def chunkMsg (w : Nat → Byte) (m t i : Nat) : Msg :=
  { rd := false
    nostart := decide (i ≠ 0)
    len := BitVec.ofNat 16 (chunkLen m t i)
    data := logicalBytes w (i * m) (chunkLen m t i) }

/-- `chunks(W, M)`, the normative closed form: W has length `t`, `m` is MAX_XFER (43_upload.md R205). This is
WRITE_MULTI(W, M) of 20_memory.md R66. -/
def chunks (w : Nat → Byte) (m t : Nat) : Request :=
  (List.range (ceilDiv t m)).map (chunkMsg w m t)

/-- The registers and the output of the iterative chunker (43_upload.md R207). -/
structure ChunkLoop where
  off : Nat
  cl : BitVec 16
  first : Bool
  out : Request
deriving DecidableEq, Repr

/-- One turn of the loop of 43_upload.md R207, with the comparison before the narrowing to 16 bits. -/
def chunkTurn (w : Nat → Byte) (m : BitVec 16) (tot : Nat) (r : ChunkLoop) : ChunkLoop :=
  let rem := tot - r.off
  let cl : BitVec 16 := if m.toNat ≤ rem then m else BitVec.ofNat 16 rem
  { off := r.off + cl.toNat
    cl := cl
    first := false
    out := r.out ++ [{ rd := false, nostart := !r.first, len := cl, data := logicalBytes w r.off cl.toNat }] }

/-- At most `fuel` turns, while OFF < TOT. -/
def chunkLoop (w : Nat → Byte) (m : BitVec 16) (tot : Nat) : Nat → ChunkLoop → ChunkLoop
  | 0, r => r
  | fuel + 1, r => if r.off < tot then chunkLoop w m tot fuel (chunkTurn w m tot r) else r

/-- The registers before the first turn; CL is not read before the first turn writes it. -/
def chunkStart (cl : BitVec 16) : ChunkLoop :=
  { off := 0, cl := cl, first := true, out := [] }

/-- The 18-bit header of a message: `rd`, `nostart`, `len` from the most significant bit (30_encoding.md R100). -/
def Msg.header (m : Msg) : BitVec 18 :=
  BitVec.ofBool m.rd ++ BitVec.ofBool m.nostart ++ m.len

/-- The number of bytes a request reads (30_encoding.md R107). -/
def Request.readLen : Request → Nat
  | [] => 0
  | m :: ms => (if m.rd then m.len.toNat else 0) + Request.readLen ms

/-- The bytes a request writes, in the order the device sees them (20_memory.md R68 (c)). -/
def Request.written : Request → List Byte
  | [] => []
  | m :: ms => (if m.rd then [] else m.data) ++ Request.written ms

end Sys2Proof.Machine
end

