-- ==== Sys2Proof/Machine/Ops.lean ====
section
/-! DEFINITION. The named operations every micro-operation is built from (00_scope.md R10, 40_sequencer.md):
control transfer, the end of an operation, taking an error (60_exceptions.md R280, the machine's one abort entry)
and what stands in the place of a return from it (45_retry.md R253), the transport phases, LINE, DELAY, ENDOK,
acceptance and hardware reset. -/

namespace Sys2Proof.Machine

/-- `advance(p)`: PHASE keeps FAILED (10_state.md R37). -/
def advance (p : Phase) (s : State) : State :=
  { s with phase := if s.phase = .failed then .failed else p }

/-- `pc <- target` (00_scope.md R10). -/
def goto (u : Upc) (s : State) : State :=
  { s with upc := u, ph := .issue }

/-- The address a micro-operation completes to: the column "next" of 40_sequencer.md R131. The last address of a
routine has no successor of its own (10_state.md R21); its `ret_ok` or `finish` names where control goes. -/
def Upc.next : Upc → Upc
  | .idle => .idle
  | .rst0 => .rst1
  | .rst1 => .rst2
  | .rst2 => .rst3
  | .rst3 => .rst4
  | .rst4 => .rst5
  | .rst5 => .rst6
  | .rst6 => .idle
  | .ers0 => .ers1
  | .ers1 => .ers2
  | .ers2 => .ers3
  | .ers3 => .ers4
  | .ers4 => .idle
  | .upl0 => .upl1
  | .upl1 => .upl2
  | .upl2 => .upl3
  | .upl3 => .upl4
  | .upl4 => .upl5
  | .upl5 => .idle
  | .fin0 => .fin1
  | .fin1 => .idle
  | .qry0 => .idle

/-- The address of a micro-operation of routine RST (40_sequencer.md R131). -/
def Upc.inRst : Upc → Bool
  | .rst0 | .rst1 | .rst2 | .rst3 | .rst4 | .rst5 | .rst6 => true
  | .idle | .ers0 | .ers1 | .ers2 | .ers3 | .ers4 | .upl0 | .upl1 | .upl2 | .upl3 | .upl4 | .upl5
  | .fin0 | .fin1 | .qry0 => false

/-- The command a transport micro-operation sends (30_encoding.md R96, column "sent by"). -/
def Upc.cmd? : Upc → Option Cmd
  | .rst1 => some .activate
  | .rst4 => some .iscEnable
  | .rst5 => some .readIdcode
  | .ers0 => some .iscEnable
  | .ers2 => some .iscErase
  | .upl0 => some .lscInit
  | .upl3 => some .lscBitstreamBurst
  | .upl4 => some .lscReadStatus
  | .fin0 => some .iscDisable
  | .idle | .rst0 | .rst2 | .rst3 | .rst6 | .ers1 | .ers3 | .ers4 | .upl1 | .upl2 | .upl5
  | .fin1 | .qry0 => none

/-- The parameter of a DELAY micro-operation (40_sequencer.md R139). -/
def Upc.delay? (c : Config) : Upc → Option Nat
  | .rst3 => some c.tResetSettle
  | .ers1 => some c.tErasePre
  | .ers3 => some c.tEraseSettle
  | .upl1 => some c.tInitSettle
  | .idle | .rst0 | .rst1 | .rst2 | .rst4 | .rst5 | .rst6 | .ers0 | .ers2 | .ers4
  | .upl0 | .upl2 | .upl3 | .upl4 | .upl5 | .fin0 | .fin1 | .qry0 => none

/-- `finish(code, detail)`: an operation ends (40_sequencer.md R148). -/
def finish (code : ResCode) (detail : Word) (s : State) : State :=
  goto .idle { s with resCode := code, resDetail := detail, resValid := true, xfq := none }

/-- `ret_ok()`: a routine ends without error (40_sequencer.md R147). -/
def retOk (s : State) : State :=
  if s.opr = 6 ∧ s.upc = .rst6 then goto .ers0 s else finish .ok 0 s

/-- `retry_or_finish(E, d)` (45_retry.md R253). -/
def retryOrFinish (e : ResCode) (d : Word) (s : State) : State :=
  if s.att + 1 < s.cfg.maxResetAttempts then goto .rst0 { s with att := s.att + 1 }
  else finish e d { s with att := s.att + 1 }

/-- The running routine is RST under one of the two wrapped operations (60_exceptions.md R280). -/
def retries (s : State) : Bool :=
  (s.opr == 5 || s.opr == 6) && s.upc.inRst

/-- `raise E(d)`: taking an error (60_exceptions.md R280). -/
def raiseError (e : ResCode) (d : Word) (s : State) : State :=
  if retries s then retryOrFinish e d { s with phase := .failed, xfq := none }
  else finish e d { s with phase := .failed, xfq := none }

/-- The reset line when RST1 aborts (41_reset.md R173). -/
def abortLine (s : State) : State :=
  match s.cfg.rstOnAbort with
  | .hold => s
  | .release => { s with rstl := false }

/-- `XferIssue(msgs)` (40_sequencer.md R136). -/
def xferIssue (msgs : Request) (s : State) : State :=
  { s with xfq := some msgs, ph := .wait }

/-- `XferDone` (40_sequencer.md R137): the response on the port is consumed, `want` being the length of the
request's read. With no response nothing changes (20_memory.md R70). A success of another length is outside the
duties of the Transport (R68) and stops the model. -/
def xferDone (want : Nat) (onOk : List Byte → State → State) (onErr : Nat → State → State) (s : State) :
    Host.Outcome State Fault Refusal :=
  match s.port.rsp with
  | none => .next s
  | some (.err code) => .next (onErr code { s with xfq := none })
  | some (.ok bytes) =>
    if bytes.length = want then .next (onOk bytes { s with xfq := none })
    else .fault (.responseLength want bytes.length)

/-- `raise TRANSPORT(code)` (60_exceptions.md R271). -/
def raiseTransport (code : Nat) (s : State) : State :=
  raiseError .transport (errDetail s.cfg code) s

/-- A transport micro-operation, its ISSUE phase and its WAIT phase (40_sequencer.md R136, R137). -/
def transact (onIssue : State → State) (want : Nat) (onOk : List Byte → State → State)
    (onErr : Nat → State → State) (s : State) : Host.Outcome State Fault Refusal :=
  match s.ph with
  | .issue => .next (onIssue s)
  | .wait => xferDone want onOk onErr s

/-- The completion of a micro-operation: `pc <- UPC + 1`. -/
def gotoNext (s : State) : State :=
  goto s.upc.next s

/-- SEND c (40_sequencer.md R138). -/
def send (c : Cmd) (s : State) : Host.Outcome State Fault Refusal :=
  transact (fun s => xferIssue (writeReq s.cfg c) s) 0 (fun _ s => gotoNext s) raiseTransport s

/-- SENDRECV c, n -> R, R being written by `store` (40_sequencer.md R140). -/
def sendRecv (c : Cmd) (n : BitVec 16) (store : Word → State → State) (s : State) :
    Host.Outcome State Fault Refusal :=
  transact (fun s => xferIssue (writeReadReq s.cfg c n) s) n.toNat (fun b s => gotoNext (store (readWord c b) s))
    raiseTransport s

/-- The ISSUE phase of BURST: the request is formed from CMD[6] and IMG as they stand in this step
(43_upload.md R208); OFF and CL are left as the loop of R207 leaves them (notes/assumptions/10.md). DESIGN CHOICE
(93_implementation_defined.md U8, 20_memory.md R81): of a host that changes its image during the operation, the bytes
sent are those of this step, where the spec leaves them unspecified (notes/assumptions/23.md). -/
def burstIssue (s : State) : State :=
  let m := s.cfg.maxXfer.toNat
  xferIssue (chunks (logicalByte s.cfg s.port.img) m s.tot)
    { s with off := s.tot, cl := BitVec.ofNat 16 (chunkLen m s.tot (ceilDiv s.tot m - 1)) }

/-- BURST (43_upload.md R208). -/
def burst (s : State) : Host.Outcome State Fault Refusal :=
  transact burstIssue 0 (fun _ s => gotoNext s) raiseTransport s

/-- LINE v (40_sequencer.md R135). -/
def line (v : Bool) (s : State) : State :=
  gotoNext { s with rstl := v }

/-- DELAY n (40_sequencer.md R139). -/
def delay (n : Nat) (s : State) : State :=
  match s.ph with
  | .issue => { s with dly := n, ph := .wait }
  | .wait =>
    if s.dly = 0 then gotoNext s
    else if s.port.tick then { s with dly := s.dly - 1 }
    else s

/-- ENDOK p (40_sequencer.md R141). -/
def endOk (p : Phase) (s : State) : State :=
  retOk (advance p s)

/-- An internal micro-operation has an ISSUE phase alone; PH = WAIT is never taken there and enables nothing
(40_sequencer.md R132, notes/assumptions/12.md). -/
def atIssue (f : State → State) (s : State) : State :=
  match s.ph with
  | .issue => f s
  | .wait => s

/-- Acceptance of an operation whose routine begins at `entry`, taken in IDLE alone (40_sequencer.md R133, R142). -/
def accept (op : BitVec 3) (entry : Upc) (s : State) : State :=
  if s.upc = .idle then goto entry { s with opr := op, att := 0, resValid := false } else s

/-- The instruction runs only where the micro-operation at UPC sends it (40_sequencer.md R132). -/
def atSender (c : Cmd) (f : State → Host.Outcome State Fault Refusal) (s : State) : Host.Outcome State Fault Refusal :=
  if s.upc.cmd? = some c then f s else .next s

/-- `hw_rst`: the values of 10_state.md R39 in any state; parameters and inputs are not CFGSM's (70 R310, R311). -/
def hwReset (s : State) : State :=
  { State.reset with cfg := s.cfg, port := s.port, stim := s.stim }

end Sys2Proof.Machine
end

