-- ==== Sys2Proof/Machine/Commands.lean ====
section
/-! DEFINITION. The device commands (format CMDFRAME): the transport micro-operation that sends each frame, in the
phase PH says (40_sequencer.md R136 to R140, 43_upload.md R208). -/

namespace Sys2Proof.Machine

/-- ACTIVATE at RST1; when it fails the line is held or released before the abort (41_reset.md R173). -/
def execActivate (s : State) : Host.Outcome State Fault Refusal :=
  atSender .activate
    (transact (fun s => xferIssue (writeReq s.cfg .activate) s) 0 (fun _ s => gotoNext s)
      (fun code s => raiseTransport code (abortLine s))) s

/-- ISC_ENABLE at RST4 and at ERS0 (41_reset.md R175, 42_prepare_erase.md R191). -/
def execIscEnable (s : State) : Host.Outcome State Fault Refusal :=
  atSender .iscEnable (send .iscEnable) s

/-- ISC_ERASE at ERS2 (42_prepare_erase.md R191). -/
def execIscErase (s : State) : Host.Outcome State Fault Refusal :=
  atSender .iscErase (send .iscErase) s

/-- ISC_DISABLE at FIN0 (44_finalize_query.md R240). -/
def execIscDisable (s : State) : Host.Outcome State Fault Refusal :=
  atSender .iscDisable (send .iscDisable) s

/-- READ_IDCODE at RST5; IDR is written on success only (41_reset.md R176). -/
def execReadIdcode (s : State) : Host.Outcome State Fault Refusal :=
  atSender .readIdcode (sendRecv .readIdcode s.cfg.idReadLen (fun w s => { s with idr := w })) s

/-- LSC_INIT at UPL0, whose ISSUE phase also does `advance(STREAMING)` (43_upload.md R201). -/
def execLscInit (s : State) : Host.Outcome State Fault Refusal :=
  atSender .lscInit
    (transact (fun s => advance .streaming (xferIssue (writeReq s.cfg .lscInit) s)) 0 (fun _ s => gotoNext s)
      raiseTransport) s

/-- LSC_BITSTREAM_BURST at UPL3, as the prefix of W (43_upload.md R208). -/
def execLscBitstreamBurst (s : State) : Host.Outcome State Fault Refusal :=
  atSender .lscBitstreamBurst burst s

/-- LSC_READ_STATUS at UPL4; SR and the flags are written on success only (43_upload.md R210). -/
def execLscReadStatus (s : State) : Host.Outcome State Fault Refusal :=
  atSender .lscReadStatus (sendRecv .lscReadStatus s.cfg.statusReadLen setStatus) s

end Sys2Proof.Machine
end

