-- ==== Sys2Proof/Machine/HostOps.lean ====
section
/-! DEFINITION. The host operations (format HOSTOP): acceptance and dispatch (40_sequencer.md R133, R134). The
routine an operation enters is run by the steps that follow (Machine/Commands.lean, Machine/Micro.lean). -/

namespace Sys2Proof.Machine

/-- QUERY_STATE enters QRY (44_finalize_query.md R242). -/
def execQueryState (s : State) : Host.Outcome State Fault Refusal :=
  .next (accept 0 .qry0 s)

/-- RESET enters RST (41_reset.md R170). -/
def execReset (s : State) : Host.Outcome State Fault Refusal :=
  .next (accept 1 .rst0 s)

/-- PREPARE_ERASE enters ERS (42_prepare_erase.md R190). -/
def execPrepareErase (s : State) : Host.Outcome State Fault Refusal :=
  .next (accept 2 .ers0 s)

/-- UPLOAD enters UPL; LEN and TOT are latched, the sum never wrapping
(43_upload.md R200, R201). -/
def execUpload (opLen : Nat) (s : State) : Host.Outcome State Fault Refusal :=
  if s.upc = .idle then
    .next (accept 3 .upl0 { s with len := opLen, tot := opLen + s.cfg.prefixLen })
  else .next s

/-- FINALIZE enters FIN (44_finalize_query.md R240). -/
def execFinalize (s : State) : Host.Outcome State Fault Refusal :=
  .next (accept 4 .fin0 s)

/-- RESET_RETRY enters RST under the retry control (45_retry.md R251). -/
def execResetRetry (s : State) : Host.Outcome State Fault Refusal :=
  .next (accept 5 .rst0 s)

/-- WRITE_INIT enters RST under the retry control, ERS following (45_retry.md R252). -/
def execWriteInit (s : State) : Host.Outcome State Fault Refusal :=
  .next (accept 6 .rst0 s)

/-- The reserved code is accepted and ended in the same step with ILLEGAL_OP (40_sequencer.md R134). -/
def execReserved111 (s : State) : Host.Outcome State Fault Refusal :=
  if s.upc = .idle then .next (finish .illegalOp 7 { s with opr := 7, att := 0 }) else .next s

end Sys2Proof.Machine
end

