-- ==== Sys2Proof/Machine/Dispatch.lean ====
section
/-! DEFINITION. `exec`: one arm per row of the opcode table. -/

namespace Sys2Proof.Machine

def exec (i : Instr) (s : State) : Host.Outcome State Fault Refusal :=
  match i with
  | .queryState => Sys2Proof.Machine.execQueryState s
  | .reset => Sys2Proof.Machine.execReset s
  | .prepareErase => Sys2Proof.Machine.execPrepareErase s
  | .upload opLen => Sys2Proof.Machine.execUpload opLen s
  | .finalize => Sys2Proof.Machine.execFinalize s
  | .resetRetry => Sys2Proof.Machine.execResetRetry s
  | .writeInit => Sys2Proof.Machine.execWriteInit s
  | .reserved111 => Sys2Proof.Machine.execReserved111 s
  | .activate => Sys2Proof.Machine.execActivate s
  | .iscEnable => Sys2Proof.Machine.execIscEnable s
  | .iscErase => Sys2Proof.Machine.execIscErase s
  | .iscDisable => Sys2Proof.Machine.execIscDisable s
  | .readIdcode => Sys2Proof.Machine.execReadIdcode s
  | .lscInit => Sys2Proof.Machine.execLscInit s
  | .lscBitstreamBurst => Sys2Proof.Machine.execLscBitstreamBurst s
  | .lscReadStatus => Sys2Proof.Machine.execLscReadStatus s

end Sys2Proof.Machine
end

