-- ==== Sys2Proof/Machine/Fetch.lean ====
section
/-! DEFINITION. Where the next instruction comes from: port `op` in IDLE (40_sequencer.md R133), CMDROM at a
transport micro-operation (20_memory.md R61); and how the input ports move on between steps. -/

namespace Sys2Proof.Machine

/-- The events withdrawn, the level lines kept (10_state.md R34). -/
def Ports.quiet (p : Ports) : Ports :=
  { p with hwRst := false, opValid := false, rsp := none, tick := false }

/-- The input levels of the following step: what the environment drives next, or no event (notes/assumptions/2.md). -/
def nextPort (s : State) : State :=
  match s.stim with
  | [] => { s with port := s.port.quiet }
  | p :: ps => { s with port := p, stim := ps }

/-- The value on port `op_len`, of LEN_W lines (10_state.md R34). -/
def portLen (s : State) : Nat :=
  lines s.cfg.lenW s.port.opLen

/-- The format of the instruction at the program counter. -/
def fetchFormat (s : State) : Format :=
  if s.upc = .idle then .hostop else .cmdframe

/-- The bytes of the instruction at the program counter: the operation on the port, when one is presented to the
idle block, or the frame that the micro-operation at UPC reads from CMDROM. -/
def fetchBytes (s : State) : Option (List Byte) :=
  if s.upc = .idle then (if s.port.opValid then some (opBytes s.cfg s.port.op (portLen s)) else none)
  else s.upc.cmd?.map (fun c => s.cfg.cmd.frame c)

/-- The instruction at the program counter. A command is selected by its number, not by its bytes: CFGSM never
decodes a command frame (30_encoding.md R116). -/
def fetched (s : State) : Option Instr :=
  if s.upc = .idle then (if s.port.opValid then some (decodeOp s.port.op (portLen s)) else none)
  else s.upc.cmd?.map Instr.ofCmd

/-- A step that answers a next state moves on to the next input levels. -/
def afterStep : Host.Outcome State Fault Refusal → Host.Outcome State Fault Refusal
  | .next s => .next (nextPort s)
  | .fault f => .fault f
  | .refused r => .refused r

/-- The first micro-operation that sends a command (30_encoding.md R96). -/
def senderOf : Cmd → Upc
  | .activate => .rst1
  | .iscEnable => .rst4
  | .iscErase => .ers2
  | .iscDisable => .fin0
  | .readIdcode => .rst5
  | .lscInit => .upl0
  | .lscBitstreamBurst => .upl3
  | .lscReadStatus => .upl4

/-- The host presents an operation to the idle block. -/
def presentOp (op : BitVec 3) (opLen : Nat) (s : State) : State :=
  { s with
    upc := .idle, ph := .issue, xfq := none
    port := { s.port with hwRst := false, opValid := true, op := op, opLen := opLen } }

/-- The micro-program stands before the ISSUE phase of the micro-operation that sends a command. -/
def presentCmd (c : Cmd) (s : State) : State :=
  { s with
    upc := senderOf c, ph := .issue, xfq := none
    port := { s.port with hwRst := false } }

/-- The state whose next step fetches these bytes; bytes that are no instruction can be presented nowhere. -/
def placeBytes (fmt : Format) (bs : List Byte) (s : State) : State :=
  match decode s.cfg fmt bs with
  | .error _ => s
  | .ok i =>
    match i.cmd?, bs with
    | some c, _ => presentCmd c s
    | none, b :: ls => presentOp (b.setWidth 3) (leNat ls) s
    | none, [] => s

end Sys2Proof.Machine
end

