-- ==== Sys2Proof/Machine/Micro.lean ====
section
/-! DEFINITION. The internal micro-operations, those that send nothing (40_sequencer.md R131): LINE, DELAY, CHKID,
ALLOC, CHKDONE, ENDOK and QUERY. -/

namespace Sys2Proof.Machine

/-- RST0: LINE 1 and the start of a run (41_reset.md R172). -/
def microRst0 (s : State) : State :=
  line true { s with phase := .resetPending, loaded := false }

/-- RST2: LINE 0 (41_reset.md R174). -/
def microRst2 (s : State) : State :=
  line false s

/-- RST6: CHKID (41_reset.md R177). -/
def microRst6 (s : State) : State :=
  if s.idr = s.cfg.expectedIdcode then retOk (advance .identified s) else raiseError .identityMismatch s.idr s

/-- ERS4: ENDOK ERASED (42_prepare_erase.md R191). -/
def microErs4 (s : State) : State :=
  endOk .erased s

/-- UPL2: ALLOC, the draw `alloc_ok` (43_upload.md R203). -/
def microUpl2 (s : State) : State :=
  if s.port.allocOk then goto .upl3 s else raiseError .allocation 0 s

/-- UPL5: CHKDONE, DONE being authoritative (43_upload.md R212). -/
def microUpl5 (s : State) : State :=
  if s.doneF then retOk (advance .verified s) else raiseError .uploadIncomplete s.sr s

/-- FIN1: ENDOK COMPLETE and LOADED <- 1 (44_finalize_query.md R240). -/
def microFin1 (s : State) : State :=
  endOk .complete { s with loaded := true }

/-- QRY0: QUERY (44_finalize_query.md R242). -/
def microQry0 (s : State) : State :=
  finish .ok s.cfg.stateOperating s

/-- The step of the micro-operation at UPC where it sends nothing. IDLE waits for an operation; a transport
micro-operation is run by the instruction it sends (Machine/Commands.lean). -/
def micro (s : State) : State :=
  match s.upc with
  | .idle => s
  | .rst0 => atIssue microRst0 s
  | .rst1 => s
  | .rst2 => atIssue microRst2 s
  | .rst3 => delay s.cfg.tResetSettle s
  | .rst4 => s
  | .rst5 => s
  | .rst6 => atIssue microRst6 s
  | .ers0 => s
  | .ers1 => delay s.cfg.tErasePre s
  | .ers2 => s
  | .ers3 => delay s.cfg.tEraseSettle s
  | .ers4 => atIssue microErs4 s
  | .upl0 => s
  | .upl1 => delay s.cfg.tInitSettle s
  | .upl2 => atIssue microUpl2 s
  | .upl3 => s
  | .upl4 => s
  | .upl5 => atIssue microUpl5 s
  | .fin0 => s
  | .fin1 => atIssue microFin1 s
  | .qry0 => atIssue microQry0 s

end Sys2Proof.Machine
end

