-- ==== Sys2Proof/Machine/Step.lean ====
section
/-! DEFINITION. One step: `hw_rst` acts in every state (70_reset_and_hazards.md R310); else the instruction at the
program counter runs, or the internal micro-operation there (40_sequencer.md R132); then the inputs move on. -/

namespace Sys2Proof.Machine

/-- One step of CFGSM under the input levels of `s.port`. -/
def step (s : State) : Host.Outcome State Fault Refusal :=
  if s.port.hwRst then afterStep (.next (hwReset s))
  else
    match fetched s with
    | some i => afterStep (exec i s)
    | none => afterStep (.next (micro s))

/-- `s` with a word of the opcode table where the next step fetches it (notes/assumptions/15.md). -/
def State.withFetchWord (s : State) (nbits w : Nat) : State :=
  placeBytes (tableFormat nbits) (tableBytes s.cfg nbits w) s

end Sys2Proof.Machine
end

