-- ==== Sys2Proof/Machine/Trace.lean ====
section
/-! DEFINITION. What the environment sees: the output ports (10_state.md R34), the events of a run in the notation
of 30_encoding.md R115, and a prompt environment that answers from a script. -/

namespace Sys2Proof.Machine

/-- `op_ready` (10_state.md R34). -/
def State.opReady (s : State) : Bool :=
  decide (s.upc = .idle)

/-- `xf_req_valid` (10_state.md R34); the request itself is `xfq`. -/
def State.xfReqValid (s : State) : Bool :=
  s.xfq.isSome

/-- The physical level of the reset pin: RST_POLARITY while RSTL = 1, the other level while it is 0
(10_state.md R31). -/
def State.rstPin (s : State) : Bool :=
  if s.rstl then s.cfg.rstPolarity else !s.cfg.rstPolarity

/-- A response is awaited (40_sequencer.md R132). -/
def waitsTransport (s : State) : Bool :=
  s.ph == .wait && s.upc.cmd?.isSome

/-- A tick is awaited (40_sequencer.md R132). -/
def waitsTick (s : State) : Bool :=
  s.ph == .wait && (s.upc.delay? s.cfg).isSome && s.dly != 0

/-- The events of a trace (30_encoding.md R115). -/
inductive Event where
  /-- `L1`, `L0` -/
  | line (v : Bool)
  /-- `W(..)`, `WR(..)`, `B[..]` -/
  | request (r : Request)
  /-- `D(n)` -/
  | delay (n : Nat)
deriving DecidableEq, Repr

/-- The events of the step from `s` to `t`. DESIGN CHOICE: `D(n)` stands at the step that leaves the DELAY, when its n
time-units have passed, so that a delay still draining or cut short by `hw_rst` shows none. 30_encoding.md R115 gives no
step for it; vector VE5 of 95_test_vectors.md lists no `D(50)` for a run that drains there (notes/assumptions/24.md).
DESIGN CHOICE: `hw_rst` shows as `L0` (notes/assumptions/11.md). -/
def events (s t : State) : List Event :=
  if s.port.hwRst then [.line false]
  else
    match s.ph with
    | .issue =>
      if s.upc = .rst0 ∨ s.upc = .rst2 then [.line t.rstl]
      else
        match s.upc.cmd? with
        | some _ => t.xfq.toList.map Event.request
        | none => []
    | .wait =>
      if s.upc = .rst1 ∧ s.rstl = true ∧ t.rstl = false then [.line false]
      else
        match s.upc.delay? s.cfg with
        | some n => if s.dly = 0 then [.delay n] else []
        | none => []

/-- The least physical time the delays of a trace take, by the duty of the time source (70_reset_and_hazards.md R321,
R331). -/
def leastTime (c : Config) : List Event → Nat
  | [] => 0
  | .delay n :: es => n * c.timeUnit + leastTime c es
  | .line _ :: es => leastTime c es
  | .request _ :: es => leastTime c es

/-- What the defective device answers to a read of `n` bytes (70_reset_and_hazards.md R324). -/
def sentinelRsp (c : Config) (n : Nat) : Rsp :=
  .ok (List.replicate n c.sentinel)

/-- What the environment of one operation supplies: the responses in the order the requests are issued, the draw
`alloc_ok`, the image (30_encoding.md R115). -/
structure Script where
  rsps : List Rsp
  allocOk : Bool
  img : Memory
deriving DecidableEq, Repr

/-- The input levels of a prompt environment: the next response when one is awaited, a tick when one is awaited, no
operation, no `hw_rst`. An exhausted script withholds the response. -/
def drive (e : Script) (s : State) : State :=
  { s with
    port :=
      { s.port with
        hwRst := false, opValid := false
        rsp := if waitsTransport s then e.rsps.head? else none
        tick := waitsTick s
        allocOk := e.allocOk
        img := e.img } }

/-- The script after a step: a response that was awaited has been consumed. -/
def Script.after (e : Script) (s : State) : Script :=
  if waitsTransport s then { e with rsps := e.rsps.tail } else e

/-- `k` steps under a prompt environment, with the trace and the state reached; `none` if a step stops. -/
def serve : Nat → Script → State → Option (List Event × State)
  | 0, _, s => some ([], s)
  | k + 1, e, s =>
    match step (drive e s) with
    | .next t => (serve k (e.after s) t).map (fun r => (events (drive e s) t ++ r.1, r.2))
    | .fault _ => none
    | .refused _ => none

end Sys2Proof.Machine
end

