-- ==== Sys2Proof/Machine/HostProgram.lean ====
section
/-! DEFINITION. The host's side: the lines of a host program and the pseudo-operations that abbreviate them
(30_encoding.md R113, R114), the framework's callbacks (R94), and how the host drives a line onto the ports. -/

namespace Sys2Proof.Machine

/-- An image of a host program (30_encoding.md R113). -/
inductive Image where
  | bytes (bs : List Byte)
  | zeros (n : Nat)
  | ramp (n : Nat)
deriving DecidableEq, Repr

/-- The bytes of an image: `ramp(n)` has byte k = k mod 256 (30_encoding.md R113). -/
def Image.toBytes : Image → List Byte
  | .bytes bs => bs
  | .zeros n => List.replicate n 0
  | .ramp n => (List.range n).map (BitVec.ofNat 8)

/-- One line of a host program (30_encoding.md R113). -/
inductive HostLine where
  | queryState
  | reset
  | prepareErase
  | upload (image : Image)
  | finalize
  | resetRetry
  | writeInit
deriving DecidableEq, Repr

/-- The pseudo-operations (30_encoding.md R114). -/
inductive Pseudo where
  | configure (image : Image)
  | probe
  | state
  | write (image : Image)
  | writeComplete
  | run (image : Image)
deriving DecidableEq, Repr

/-- What a pseudo-operation expands to (30_encoding.md R114). -/
def Pseudo.expand : Pseudo → List HostLine
  | .configure image => [.writeInit, .upload image, .finalize]
  | .probe => [.resetRetry]
  | .state => [.queryState]
  | .write image => [.upload image]
  | .writeComplete => [.finalize]
  | .run image => [.reset, .prepareErase, .upload image, .finalize]

/-- The operation of a line; `op_len` is the length of the image (30_encoding.md R113). -/
def HostLine.instr : HostLine → Instr
  | .queryState => .queryState
  | .reset => .reset
  | .prepareErase => .prepareErase
  | .upload image => .upload image.toBytes.length
  | .finalize => .finalize
  | .resetRetry => .resetRetry
  | .writeInit => .writeInit

/-- The image of a line. -/
def HostLine.image : HostLine → Memory
  | .upload image => Memory.load [] 0 image.toBytes
  | .queryState | .reset | .prepareErase | .finalize | .resetRetry | .writeInit => []

/-- The code on port `op` (30_encoding.md R91). -/
def HostLine.op : HostLine → BitVec 3
  | .queryState => 0
  | .reset => 1
  | .prepareErase => 2
  | .upload _ => 3
  | .finalize => 4
  | .resetRetry => 5
  | .writeInit => 6

/-- The host presents a line (30_encoding.md R113). -/
def HostLine.present (l : HostLine) (s : State) : State :=
  { s with
    port :=
      { s.port with
        hwRst := false, opValid := true, op := l.op
        opLen := (match l with | .upload image => image.toBytes.length | _ => s.port.opLen)
        img := l.image } }

end Sys2Proof.Machine
end

