-- ==== Sys2Proof/Safety.lean ====
section
/-! DEFINITION. The terms claims use: the duties of the environment, the invariants of the machine, the tables of
control transfer and of results, the live part of the state, the bound on the steps of an operation. -/

namespace Sys2Proof.Machine

/-- The length of the read of the request that the micro-operation at UPC issues (20_memory.md R66). -/
def Upc.readLen (c : Config) (u : Upc) : Nat :=
  if u = .rst5 then c.idReadLen.toNat else if u = .upl4 then c.statusReadLen.toNat else 0

/-- The Transport keeps duty (b) of 20_memory.md R68 in this step: a success carries exactly the bytes read. -/
def dutiful (s : State) : Bool :=
  match s.port.rsp with
  | some (.ok bytes) => !waitsTransport s || bytes.length == s.upc.readLen s.cfg
  | some (.err _) => true
  | none => true

/-- Some step of CFGSM itself is enabled under the present inputs (40_sequencer.md R132). -/
def enabled (s : State) : Bool :=
  match s.upc.cmd?, s.upc.delay? s.cfg, s.ph with
  | _, _, .issue => s.upc != .idle || s.port.opValid
  | some _, _, .wait => s.port.rsp.isSome
  | none, some _, .wait => s.dly == 0 || s.port.tick
  | none, none, .wait => s.upc == .idle && s.port.opValid

/-- Two states with the same parameters and registers, whatever the inputs. -/
def SameMachine (s t : State) : Prop :=
  { t with port := s.port, stim := s.stim } = s

/-- UPC, PH, XFQ and RES_VALID agree (10_state.md R21, R30, R32). -/
abbrev ControlInv (s : State) : Prop :=
  (s.upc = .idle → s.ph = .issue) ∧
  (s.ph = .wait → s.upc.cmd?.isSome ∨ (s.upc.delay? s.cfg).isSome) ∧
  (s.xfq.isSome ↔ (s.ph = .wait ∧ s.upc.cmd?.isSome)) ∧
  (s.upc ≠ .idle → s.resValid = false)

/-- The operations that run the routine of an address (30_encoding.md R91, column "routine(s) run"). -/
def Upc.runBy : Upc → List (BitVec 3)
  | .idle => [0, 1, 2, 3, 4, 5, 6, 7]
  | .rst0 | .rst1 | .rst2 | .rst3 | .rst4 | .rst5 | .rst6 => [1, 5, 6]
  | .ers0 | .ers1 | .ers2 | .ers3 | .ers4 => [2, 6]
  | .upl0 | .upl1 | .upl2 | .upl3 | .upl4 | .upl5 => [3]
  | .fin0 | .fin1 => [4]
  | .qry0 => [0]

/-- The address of a micro-operation of routine UPL (40_sequencer.md R131). -/
def Upc.inUpl : Upc → Bool
  | .upl0 | .upl1 | .upl2 | .upl3 | .upl4 | .upl5 => true
  | .idle | .rst0 | .rst1 | .rst2 | .rst3 | .rst4 | .rst5 | .rst6 | .ers0 | .ers1 | .ers2 | .ers3 | .ers4
  | .fin0 | .fin1 | .qry0 => false

/-- OPR selects the routine that runs, and ATT counts the failed attempts, below the bound while an operation runs and
at most the bound once one has ended (10_state.md R22, R23, 45_retry.md R257). Nothing is asked of ATT after `hw_rst`,
where 10_state.md R39 leaves it unspecified. -/
abbrev RetryInv (s : State) : Prop :=
  s.cfg.attemptsOk = true ∧
  s.opr ∈ s.upc.runBy ∧
  (s.resValid = true → s.att ≤ s.cfg.maxResetAttempts) ∧
  (s.upc ≠ .idle → s.att < s.cfg.maxResetAttempts) ∧
  (s.upc ≠ .idle → s.opr ≠ 5 → s.opr ≠ 6 → s.att = 0)

/-- The reset line and the ghost PHASE while routine RST runs: ACTIVATE is sent with the line active, everything
after RST2 with the line released (41_reset.md R171, 10_state.md R37). -/
abbrev LineInv (s : State) : Prop :=
  (s.upc = .rst1 ∨ s.upc = .rst2 → s.rstl = true) ∧
  (s.upc = .rst3 ∨ s.upc = .rst4 ∨ s.upc = .rst5 ∨ s.upc = .rst6 → s.rstl = false) ∧
  (s.upc.inRst = true → s.upc ≠ .rst0 → s.phase = .resetPending ∧ s.loaded = false)

/-- The flags are the three bits of SR that they decode (10_state.md R29). -/
abbrev FlagsDecoded (s : State) : Prop :=
  (s.doneF, s.busyF, s.failF) = decodeStatus s.cfg s.sr

/-- The derived registers where they are live: the flags are the decoded SR at UPL5 (10_state.md R29), in routine UPL
LEN has LEN_W bits and TOT is LEN + PREFIX_LEN (R24), in a DELAY that drains DLY has not passed its parameter (R26). -/
abbrev RegisterInv (s : State) : Prop :=
  (s.upc = .upl5 → FlagsDecoded s) ∧
  (s.upc.inUpl = true → s.len < 2 ^ s.cfg.lenW ∧ s.tot = s.len + s.cfg.prefixLen) ∧
  (∀ n, s.upc.delay? s.cfg = some n → s.ph = .wait → s.dly ≤ n)

/-- A message within the transfer limit, whose `len` is the number of its data bytes if it is a write
(30_encoding.md R100, 20_memory.md R69). -/
def msgOk (c : Config) (m : Msg) : Bool :=
  decide (1 ≤ m.len.toNat) && decide (m.len.toNat ≤ c.maxXfer.toNat) &&
    (if m.rd then m.data == [] && !m.nostart else m.data.length == m.len.toNat)

/-- A request that may be emitted: not empty, begun with a start condition, all messages within the limit, at most
one read (30_encoding.md R101). -/
def requestOk (c : Config) (r : Request) : Bool :=
  r.head?.any (fun m => !m.nostart && !m.rd) && r.all (msgOk c) && decide ((r.filter (fun m => m.rd)).length ≤ 1)

/-- The pending request may be emitted. -/
abbrev RequestInv (s : State) : Prop :=
  s.cfg.wf = true ∧ s.cfg.maxXferWhole = true ∧
  (s.upc.inUpl = true → s.tot = s.len + s.cfg.prefixLen) ∧
  (∀ r, s.xfq = some r → requestOk s.cfg r = true)

/-- The targets of the transfers out of an address, IDLE by `hw_rst` apart (40_sequencer.md R144). -/
def Upc.targets : Upc → List Upc
  | .idle => [.qry0, .rst0, .ers0, .upl0, .fin0, .idle]
  | .rst0 => [.rst1]
  | .rst1 => [.rst2, .rst0, .idle]
  | .rst2 => [.rst3]
  | .rst3 => [.rst4]
  | .rst4 => [.rst5, .rst0, .idle]
  | .rst5 => [.rst6, .rst0, .idle]
  | .rst6 => [.idle, .ers0, .rst0]
  | .ers0 => [.ers1, .idle]
  | .ers1 => [.ers2]
  | .ers2 => [.ers3, .idle]
  | .ers3 => [.ers4]
  | .ers4 => [.idle]
  | .upl0 => [.upl1, .idle]
  | .upl1 => [.upl2]
  | .upl2 => [.upl3, .idle]
  | .upl3 => [.upl4, .idle]
  | .upl4 => [.upl5, .idle]
  | .upl5 => [.idle]
  | .fin0 => [.fin1, .idle]
  | .fin1 => [.idle]
  | .qry0 => [.idle]

/-- Which operation can end with which result (60_exceptions.md R276). -/
def mayEnd (opr : BitVec 3) (code : ResCode) : Bool :=
  match opr.toNat, code with
  | 0, .ok => true
  | 1, .ok | 1, .transport | 1, .identityMismatch => true
  | 2, .ok | 2, .transport => true
  | 3, .ok | 3, .transport | 3, .uploadIncomplete | 3, .allocation => true
  | 4, .ok | 4, .transport => true
  | 5, .ok | 5, .transport | 5, .identityMismatch => true
  | 6, .ok | 6, .transport | 6, .identityMismatch => true
  | 7, .illegalOp => true
  | _, _ => false

/-- The two states agree on everything a later step can read before it is written: all but the working registers
that are dead at UPC and PH (10_state.md R42). -/
abbrev LiveEq (s t : State) : Prop :=
  s.cfg = t.cfg ∧ s.port = t.port ∧ s.stim = t.stim ∧ s.upc = t.upc ∧ s.ph = t.ph ∧ s.xfq = t.xfq ∧
  s.rstl = t.rstl ∧ s.resValid = t.resValid ∧ s.resCode = t.resCode ∧ s.resDetail = t.resDetail ∧
  s.loaded = t.loaded ∧ s.phase = t.phase ∧
  (s.upc ≠ .idle → s.opr = t.opr ∧ s.att = t.att) ∧
  (s.upc.inUpl = true → s.len = t.len ∧ s.tot = t.tot) ∧
  ((s.upc.delay? s.cfg).isSome → s.ph = .wait → s.dly = t.dly) ∧
  (s.upc = .rst6 → s.idr = t.idr) ∧
  (s.upc = .upl5 → s.sr = t.sr ∧ s.doneF = t.doneF)

/-- The enabled steps from the ISSUE phase of a micro-operation to the end of its routine: LINE and the checks take
1, a transaction 2, a DELAY of n ticks n + 2 (95_test_vectors.md section 0). -/
def Upc.routineSteps (c : Config) : Upc → Nat
  | .idle => 0
  | .rst0 => c.tResetSettle + 11
  | .rst1 => c.tResetSettle + 10
  | .rst2 => c.tResetSettle + 8
  | .rst3 => c.tResetSettle + 7
  | .rst4 => 5
  | .rst5 => 3
  | .rst6 => 1
  | .ers0 => c.tErasePre + c.tEraseSettle + 9
  | .ers1 => c.tErasePre + c.tEraseSettle + 7
  | .ers2 => c.tEraseSettle + 5
  | .ers3 => c.tEraseSettle + 3
  | .ers4 => 1
  | .upl0 => c.tInitSettle + 10
  | .upl1 => c.tInitSettle + 8
  | .upl2 => 6
  | .upl3 => 5
  | .upl4 => 3
  | .upl5 => 1
  | .fin0 => 3
  | .fin1 => 1
  | .qry0 => 1

/-- A bound on the enabled steps until the running operation ends: those of this routine, those of the attempts that
may follow, those of ERS after a WRITE_INIT's reset (40_sequencer.md R144). -/
def stepsLeft (s : State) : Nat :=
  (match s.ph, s.upc.delay? s.cfg with
    | .issue, _ => s.upc.routineSteps s.cfg
    | .wait, none => s.upc.routineSteps s.cfg - 1
    | .wait, some _ => s.upc.next.routineSteps s.cfg + s.dly + 1) +
  (if retries s then (s.cfg.maxResetAttempts - 1 - s.att) * Upc.rst0.routineSteps s.cfg else 0) +
  (if s.upc.inRst && s.opr == 6 then Upc.ers0.routineSteps s.cfg else 0)

/-- One execution of routine RST, by the responses of the Transport: the first request that fails, or the bytes
read as the identity (41_reset.md R170). -/
inductive Attempt where
  | activateFails (code : Nat)
  | enableFails (code : Nat)
  | readFails (code : Nat)
  | identity (bytes : List Byte)
deriving DecidableEq, Repr

/-- The Transport keeps its duty (b): the identity read returns ID_READ_LEN bytes (20_memory.md R68). -/
def Attempt.fits (c : Config) : Attempt → Bool
  | .activateFails _ | .enableFails _ | .readFails _ => true
  | .identity bytes => bytes.length == c.idReadLen.toNat

/-- The responses of an attempt, in the order of its requests. -/
def Attempt.rsps : Attempt → List Rsp
  | .activateFails code => [.err code]
  | .enableFails code => [.ok [], .err code]
  | .readFails code => [.ok [], .ok [], .err code]
  | .identity bytes => [.ok [], .ok [], .ok bytes]

/-- The error an attempt ends with, or `none` when the identity matches (41_reset.md R170, column RES_CODE). -/
def Attempt.error (c : Config) : Attempt → Option (ResCode × Word)
  | .activateFails code | .enableFails code | .readFails code => some (.transport, errDetail c code)
  | .identity bytes =>
    if readWord .readIdcode bytes = c.expectedIdcode then none
    else some (.identityMismatch, readWord .readIdcode bytes)

/-- The steps of an attempt under a prompt environment, from RST0 (95_test_vectors.md section 0). -/
def Attempt.steps (c : Config) : Attempt → Nat
  | .activateFails _ => 3
  | .enableFails _ => c.tResetSettle + 8
  | .readFails _ => c.tResetSettle + 10
  | .identity _ => c.tResetSettle + 11

/-- The events of an attempt, from RST0 (41_reset.md R170, R173). -/
def Attempt.trace (c : Config) : Attempt → List Event
  | .activateFails _ =>
    [.line true, .request (writeReq c .activate)] ++ (if c.rstOnAbort = .release then [.line false] else [])
  | .enableFails _ =>
    [.line true, .request (writeReq c .activate), .line false, .delay c.tResetSettle,
      .request (writeReq c .iscEnable)]
  | .readFails _ | .identity _ =>
    [.line true, .request (writeReq c .activate), .line false, .delay c.tResetSettle,
      .request (writeReq c .iscEnable), .request (writeReadReq c .readIdcode c.idReadLen)]

/-- RSTL after an attempt (41_reset.md R170, column "RSTL at end"). -/
def Attempt.rstl (c : Config) : Attempt → Bool
  | .activateFails _ => decide (c.rstOnAbort = .hold)
  | .enableFails _ | .readFails _ | .identity _ => false

/-- IDR after an attempt that began with `old` in it: written when the read succeeds, and only then
(41_reset.md R176). -/
def Attempt.idr (old : Word) : Attempt → Word
  | .activateFails _ | .enableFails _ | .readFails _ => old
  | .identity bytes => readWord .readIdcode bytes

/-- One execution of routine ERS, by the responses of the Transport (42_prepare_erase.md R190). -/
inductive EraseRun where
  | enableFails (code : Nat)
  | eraseFails (code : Nat)
  | done
deriving DecidableEq, Repr

/-- The responses of an erase run, in the order of its requests. -/
def EraseRun.rsps : EraseRun → List Rsp
  | .enableFails code => [.err code]
  | .eraseFails code => [.ok [], .err code]
  | .done => [.ok [], .ok []]

/-- The result of an erase run (42_prepare_erase.md R190, columns RES_CODE and RES_DETAIL). -/
def EraseRun.result (c : Config) : EraseRun → ResCode × Word
  | .enableFails code => (.transport, errDetail c code)
  | .eraseFails code => (.transport, errDetail c code)
  | .done => (.ok, 0)

/-- The steps of an erase run under a prompt environment, from ERS0 (95_test_vectors.md section 0). -/
def EraseRun.steps (c : Config) : EraseRun → Nat
  | .enableFails _ => 2
  | .eraseFails _ => c.tErasePre + 6
  | .done => c.tErasePre + c.tEraseSettle + 9

/-- The events of an erase run (42_prepare_erase.md R190). -/
def EraseRun.trace (c : Config) : EraseRun → List Event
  | .enableFails _ => [.request (writeReq c .iscEnable)]
  | .eraseFails _ =>
    [.request (writeReq c .iscEnable), .delay c.tErasePre, .request (writeReq c .iscErase)]
  | .done =>
    [.request (writeReq c .iscEnable), .delay c.tErasePre, .request (writeReq c .iscErase),
      .delay c.tEraseSettle]

/-- The registers that no step of routines RST and ERS writes agree (10_state.md R38). -/
abbrev UploadPartEq (s t : State) : Prop :=
  s.cfg = t.cfg ∧ s.len = t.len ∧ s.tot = t.tot ∧ s.off = t.off ∧ s.cl = t.cl ∧ s.sr = t.sr ∧
  s.doneF = t.doneF ∧ s.busyF = t.busyF ∧ s.failF = t.failF

/-- One execution of routine UPL, by the responses of the Transport and the draw (43_upload.md R200). -/
inductive UploadRun where
  | initFails (code : Nat)
  | noBuffer
  | burstFails (code : Nat)
  | statusFails (code : Nat)
  | status (bytes : List Byte)
deriving DecidableEq, Repr

/-- The Transport keeps its duty (b), and the draw is the one of this run. -/
def UploadRun.fits (c : Config) (allocOk : Bool) : UploadRun → Bool
  | .initFails _ => true
  | .noBuffer => !allocOk
  | .burstFails _ | .statusFails _ => allocOk
  | .status bytes => allocOk && bytes.length == c.statusReadLen.toNat

/-- The responses of an upload, in the order of its requests. -/
def UploadRun.rsps : UploadRun → List Rsp
  | .initFails code => [.err code]
  | .noBuffer => [.ok []]
  | .burstFails code => [.ok [], .err code]
  | .statusFails code => [.ok [], .ok [], .err code]
  | .status bytes => [.ok [], .ok [], .ok bytes]

/-- The DONE flag of the status word that was read. -/
def UploadRun.done (c : Config) : UploadRun → Bool
  | .initFails _ | .noBuffer | .burstFails _ | .statusFails _ => false
  | .status bytes => (readWord .lscReadStatus bytes).getLsbD c.doneBit.val

/-- The result of an upload (43_upload.md R200, columns RES_CODE and RES_DETAIL). -/
def UploadRun.result (c : Config) : UploadRun → ResCode × Word
  | .initFails code | .burstFails code | .statusFails code => (.transport, errDetail c code)
  | .noBuffer => (.allocation, 0)
  | .status bytes =>
    if (readWord .lscReadStatus bytes).getLsbD c.doneBit.val then (.ok, 0)
    else (.uploadIncomplete, readWord .lscReadStatus bytes)

/-- The steps of an upload under a prompt environment, from UPL0 (95_test_vectors.md section 0). -/
def UploadRun.steps (c : Config) : UploadRun → Nat
  | .initFails _ => 2
  | .noBuffer => c.tInitSettle + 5
  | .burstFails _ => c.tInitSettle + 7
  | .statusFails _ => c.tInitSettle + 9
  | .status _ => c.tInitSettle + 10

/-- The events of an upload of `n` bytes (43_upload.md R200). -/
def UploadRun.trace (c : Config) (img : Memory) (n : Nat) : UploadRun → List Event
  | .initFails _ => [.request (writeReq c .lscInit)]
  | .noBuffer => [.request (writeReq c .lscInit), .delay c.tInitSettle]
  | .burstFails _ =>
    [.request (writeReq c .lscInit), .delay c.tInitSettle,
      .request (chunks (logicalByte c img) c.maxXfer.toNat (n + c.prefixLen))]
  | .statusFails _ | .status _ =>
    [.request (writeReq c .lscInit), .delay c.tInitSettle,
      .request (chunks (logicalByte c img) c.maxXfer.toNat (n + c.prefixLen)),
      .request (writeReadReq c .lscReadStatus c.statusReadLen)]

/-- What every UPLOAD of `n` bytes leaves: its operand in LEN and TOT, and the registers it does not touch
(43_upload.md R200, R201). -/
abbrev UploadFrame (n : Nat) (s t : State) : Prop :=
  t.cfg = s.cfg ∧ t.opr = 3 ∧ t.att = 0 ∧ t.len = n ∧ t.tot = n + t.cfg.prefixLen ∧ t.rstl = s.rstl ∧
  t.loaded = s.loaded ∧ t.idr = s.idr

/-- SR and the flags are as before (43_upload.md R210: they are written on success only). -/
abbrev StatusKept (s t : State) : Prop :=
  t.sr = s.sr ∧ t.doneF = s.doneF ∧ t.busyF = s.busyF ∧ t.failF = s.failF

/-- SR and the flags after an upload: the word read, decoded, when the read succeeds (43_upload.md R210, R211). -/
def UploadRun.statusAfter (s t : State) : UploadRun → Prop
  | .initFails _ | .noBuffer | .burstFails _ | .statusFails _ => StatusKept s t
  | .status bytes => t.sr = readWord .lscReadStatus bytes ∧ FlagsDecoded t

/-- The number of ticks among some input levels. -/
def ticks (ps : List Ports) : Nat :=
  (ps.filter (fun p => p.tick)).length

/-- The operation has ended with this result: idle, no request pending, the mailbox valid (40_sequencer.md R148,
R149). -/
abbrev EndedWith (code : ResCode) (detail : Word) (s : State) : Prop :=
  s.upc = .idle ∧ s.ph = .issue ∧ s.xfq = none ∧ s.resValid = true ∧ s.resCode = code ∧ s.resDetail = detail

/-- The order of operations the framework guarantees and CFGSM does not check, QUERY_STATE apart
(70_reset_and_hazards.md R314): a reset, an erase unless the reset had it, one or more uploads, a finalize. -/
def inOrder : List HostLine → Bool
  | .queryState :: ls => inOrder ls
  | .reset :: ls => afterReset ls
  | .resetRetry :: ls => afterReset ls
  | .writeInit :: ls => afterErase false ls
  | _ => false
where
  /-- after RESET or RESET_RETRY: PREPARE_ERASE follows -/
  afterReset : List HostLine → Bool
    | .queryState :: ls => afterReset ls
    | .prepareErase :: ls => afterErase false ls
    | _ => false
  /-- after the erase: uploads, of which there must be one, then FINALIZE -/
  afterErase : Bool → List HostLine → Bool
    | up, .queryState :: ls => afterErase up ls
    | _, .upload _ :: ls => afterErase true ls
    | up, .finalize :: ls => up && ls.all (fun l => l == .queryState)
    | _, _ => false

end Sys2Proof.Machine
end

