-- ==== Sys2Proof/Certificates/Slice0/Obligations.lean ====
section
/-! DEFINITION. The statements for the provers, from the numbered rules of spec/. -/

open Sys2Proof Sys2Proof.Machine

/-! ### Encodings -/

/-- The eight codes of port `op` select the operations of 30_encoding.md R91, and `op_len` is UPLOAD's operand
(the layout of the operand bytes is the model's choice, notes/assumptions/9.md). -/
def Obligations.HostOpWordsDecode : Prop :=
  decodeTableWord 8 0 = some .queryState ∧ decodeTableWord 8 1 = some .reset ∧
  decodeTableWord 8 2 = some .prepareErase ∧ decodeTableWord 8 3 = some (.upload 0) ∧
  decodeTableWord 8 4 = some .finalize ∧ decodeTableWord 8 5 = some .resetRetry ∧
  decodeTableWord 8 6 = some .writeInit ∧ decodeTableWord 8 7 = some .reserved111 ∧
  decodeTableWord 40 0x0000040003 = some (.upload 0x400) ∧ decodeTableWord 8 8 = none

/-- Decoding the encoding of a well-formed instruction gives it back, for all parameters whose frames differ pairwise
(30_encoding.md R116: a decoder of frames needs CMD instantiated). -/
def Obligations.DecodeEncodeAgree : Prop :=
  ∀ (c : Config) (i : Instr), c.cmd.distinct = true → i.wf c = true → decode c i.format (encode c i) = .ok i

/-- For any CMDROM, frames that coincide included (00_scope.md R7 (e)), the encoding of a well-formed instruction decodes
in its format, to an instruction with the same bytes. -/
def Obligations.DecodeEncodeSameBytes : Prop :=
  ∀ (c : Config) (i : Instr), i.wf c = true →
    ∃ j, j.format = i.format ∧ decode c i.format (encode c i) = .ok j ∧ encode c j = encode c i

/-- Bytes that decode as a command are that command's frame. Bytes that decode as a host operation are an op code and a
value of `op_len` within LEN_W bits, which select the operation; they are its encoding only up to the `op_len` that an
operation without operand ignores (30_encoding.md R92). The byte layout of a host operation is the model's choice
(notes/assumptions/9.md). -/
def Obligations.DecodedBytesCarryCodeOrFrame : Prop :=
  ∀ (c : Config) (bs : List Byte) (i : Instr),
    (decode c .cmdframe bs = .ok i → i.format = .cmdframe ∧ encode c i = bs) ∧
    (decode c .hostop bs = .ok i → i.format = .hostop ∧ i.wf c = true ∧
      ∃ op opLen, opLen < 2 ^ c.lenW ∧ bs = opBytes c op opLen ∧ decodeOp op opLen = i ∧
        (op = 3 → encode c i = bs) ∧ (op ≠ 3 → encode c i = opBytes c op 0))

/-- The header of a message has `rd` in bit 17, `nostart` in bit 16 and `len` in bits 15..0; a frame's message and the
read have, at CMD_LEN = 4 and a read of 4, the headers 0x00004 and 0x20004 (30_encoding.md R100, R101). -/
def Obligations.MessageHeaderLayout : Prop :=
  (∀ m : Msg, m.header.getLsbD 17 = m.rd ∧ m.header.getLsbD 16 = m.nostart ∧ m.header.extractLsb' 0 16 = m.len) ∧
  (∀ (c : Config) (k : Cmd), c.cmdLen = 4 → (frameMsg c k).header = 0x00004) ∧ (readMsg 4).header = 0x20004

/-- `le32` is exact: byte 0 is the least significant; the words read back are `le32` of their 4 bytes (00_scope.md R9,
20_memory.md R72). -/
def Obligations.LittleEndianWords : Prop :=
  ∀ b0 b1 b2 b3 : Byte,
    (le32 [b0, b1, b2, b3]).toNat = b0.toNat + 256 * b1.toNat + 65536 * b2.toNat + 16777216 * b3.toNat ∧
    le32 [b0, b1, b2, b3] = b3 ++ b2 ++ b1 ++ b0 ∧ ∀ k, readWord k [b0, b1, b2, b3] = le32 [b0, b1, b2, b3]

/-- The parameters of the hardware meet 00_scope.md R7 and the model's further constraints (notes/assumptions/25.md),
whatever the OPEN ones are. -/
def Obligations.HardwareParametersAdmitted : Prop :=
  Config.hardware.wf = true ∧ Config.hardware.maxXferWhole = true

/-! ### Memory -/

/-- An image loaded from a byte sequence reads as that sequence (20_memory.md R62). -/
def Obligations.ImageReadsAsLoaded : Prop :=
  ∀ (bs : List Byte) (k : Nat) (h : k < bs.length),
    Memory.read (Memory.load [] 0 bs) k = bs[k]

/-- No instruction writes a byte of the image, the command ROM or an input: every address reads as before
(20_memory.md R60, R61, R62). -/
def Obligations.InstructionsWriteNoMemory : Prop :=
  ∀ (i : Instr) (s t : State), exec i s = .next t →
    (∀ a, Memory.read t.port.img a = Memory.read s.port.img a) ∧
    (∀ c, t.cfg.cmd.frame c = s.cfg.cmd.frame c) ∧ t.cfg = s.cfg ∧ t.port = s.port ∧ t.stim = s.stim

/-! ### The step -/

/-- When the bytes at the program counter decode to an instruction, the step is `exec` of it, after which the inputs
move on. At a transport micro-operation this asks that the frames differ, since the command is selected by its
number and not by its bytes. -/
def Obligations.StepRunsTheDecodedInstruction : Prop :=
  ∀ (s : State) (bs : List Byte) (i : Instr), s.port.hwRst = false → fetchBytes s = some bs →
    decode s.cfg (fetchFormat s) bs = .ok i → i.wf s.cfg = true → (s.upc = .idle ∨ s.cfg.cmd.distinct = true) →
    (∀ t, exec i s = .next t → step s = .next (nextPort t)) ∧ (∀ f, exec i s = .fault f → step s = .fault f) ∧
    (∀ r, exec i s = .refused r → step s = .refused r)

/-- While the Transport keeps its duty (b), every step of every state answers a next state: no fault, no refusal
(40_sequencer.md R132, 20_memory.md R68). -/
def Obligations.DutifulStepAnswersNext : Prop :=
  ∀ s : State, dutiful s = true → ∃ t, step s = .next t

/-- The model's choice (notes/assumptions/5.md): a success with a number of bytes that is not the request's read
length stops the model, its behaviour being unspecified (20_memory.md R68). -/
def Obligations.WrongResponseLengthStops : Prop :=
  ∀ (s : State) (bytes : List Byte), s.port.hwRst = false → waitsTransport s = true →
    s.port.rsp = some (.ok bytes) → bytes.length ≠ s.upc.readLen s.cfg →
    step s = .fault (.responseLength (s.upc.readLen s.cfg) bytes.length)

/-- Where no step of CFGSM is enabled, nothing changes but the inputs (40_sequencer.md R132). -/
def Obligations.NothingEnabledNothingChanges : Prop :=
  ∀ s : State, s.port.hwRst = false → enabled s = false → step s = .next (nextPort s)

/-- CFGSM waits without bound, with no step of its own enabled: at a transport micro-operation until a response, at a
DELAY with DLY > 0 until a tick, in IDLE until an operation (40_sequencer.md R146, 20_memory.md R70). -/
def Obligations.WaitsWithoutBound : Prop :=
  ∀ (n : Nat) (s : State), (∀ p ∈ s.port :: s.stim, p.hwRst = false) →
    ((waitsTransport s = true ∧ ∀ p ∈ s.port :: s.stim, p.rsp = none) ∨
      (waitsTick s = true ∧ ∀ p ∈ s.port :: s.stim, p.tick = false) ∨
      (s.upc = .idle ∧ ∀ p ∈ s.port :: s.stim, p.opValid = false)) →
    ∃ t, Sys2Proof.core.run n s = .next t ∧ SameMachine s t

/-- An input is read only where 40_sequencer.md R132 says so: steps from two states that differ in inputs read nowhere
there have the same effect (R143, 60_exceptions.md R278): `op` with `op_valid` alone, `op_len` with `op` = UPLOAD alone
(30_encoding.md R92). -/
def Obligations.InputsAreReadWhereEnabled : Prop :=
  ∀ (s t : State) (p : Ports), s.port.hwRst = false → p.hwRst = false →
    (s.upc = .idle → p.opValid = s.port.opValid) →
    (s.upc = .idle → s.port.opValid = true → p.op = s.port.op) →
    (s.upc = .idle → s.port.opValid = true → s.port.op = 3 →
      lines s.cfg.lenW p.opLen = lines s.cfg.lenW s.port.opLen) →
    (waitsTransport s = true → p.rsp = s.port.rsp) → (waitsTick s = true → p.tick = s.port.tick) →
    (s.upc = .upl2 → s.ph = .issue → p.allocOk = s.port.allocOk) →
    (s.upc = .upl3 → s.ph = .issue → p.img = s.port.img) →
    step s = .next t → ∃ t', step { s with port := p } = .next t' ∧ SameMachine t t'

/-! ### Acceptance -/

/-- Acceptance and dispatch, in every idle state whatever happened before: what each operation latches and the routine
it enters, everything else unchanged (40_sequencer.md R133). -/
def Obligations.AcceptanceDispatches : Prop :=
  ∀ s : State, s.upc = .idle →
    (s.port.hwRst = false → s.port.opValid = true →
      ∃ t, exec (decodeOp s.port.op (portLen s)) s = .next t ∧ step s = .next (nextPort t)) ∧
    exec .queryState s = .next { s with opr := 0, att := 0, resValid := false, upc := .qry0, ph := .issue } ∧
    exec .reset s = .next { s with opr := 1, att := 0, resValid := false, upc := .rst0, ph := .issue } ∧
    exec .prepareErase s = .next { s with opr := 2, att := 0, resValid := false, upc := .ers0, ph := .issue } ∧
    (∀ n : Nat, exec (.upload n) s =
      .next { s with
        opr := 3, att := 0, resValid := false, upc := .upl0, ph := .issue
        len := n, tot := n + s.cfg.prefixLen }) ∧
    exec .finalize s = .next { s with opr := 4, att := 0, resValid := false, upc := .fin0, ph := .issue } ∧
    exec .resetRetry s = .next { s with opr := 5, att := 0, resValid := false, upc := .rst0, ph := .issue } ∧
    exec .writeInit s = .next { s with opr := 6, att := 0, resValid := false, upc := .rst0, ph := .issue }

/-- The reserved code is accepted and ended in the same step: OPR 7, ATT 0, ILLEGAL_OP with detail 7, nothing else
(40_sequencer.md R134). -/
def Obligations.ReservedCodeEndsAtOnce : Prop :=
  ∀ s : State, s.upc = .idle →
    exec .reserved111 s =
      .next { s with
        opr := 7, att := 0, resValid := true, resCode := .illegalOp, resDetail := 7, xfq := none
        upc := .idle, ph := .issue }

/-- While an operation runs, `op_ready` is 0, no operation is taken or queued, and the lines `op_valid`, `op` and
`op_len` change nothing (40_sequencer.md R142). -/
def Obligations.BusyBlockTakesNoOperation : Prop :=
  ∀ s : State, s.upc ≠ .idle → s.opReady = false ∧ (∀ i : Instr, i.cmd? = none → exec i s = .next s) ∧
    (∀ (v : Bool) (o : BitVec 3) (l : Nat) (t : State), step s = .next t →
      ∃ t', step { s with port := { s.port with opValid := v, op := o, opLen := l } } = .next t' ∧ SameMachine t t')

/-! ### Command frames -/

/-- The ISSUE phase of a command: one request, carrying the frame as one write of CMD_LEN bytes and, for the two reads,
a read of ID_READ_LEN or STATUS_READ_LEN bytes after it; nothing else changes but PHASE at UPL0 (40_sequencer.md R138,
R140, 43_upload.md R201). -/
def Obligations.CommandsIssueTheirFrame : Prop :=
  ∀ s : State, s.ph = .issue →
    (s.upc = .rst1 → exec .activate s = .next { s with
      ph := .wait, xfq := some [⟨false, false, s.cfg.cmdLen, s.cfg.cmd.activate⟩] }) ∧
    (s.upc = .rst4 ∨ s.upc = .ers0 → exec .iscEnable s = .next { s with
      ph := .wait, xfq := some [⟨false, false, s.cfg.cmdLen, s.cfg.cmd.iscEnable⟩] }) ∧
    (s.upc = .ers2 → exec .iscErase s = .next { s with
      ph := .wait, xfq := some [⟨false, false, s.cfg.cmdLen, s.cfg.cmd.iscErase⟩] }) ∧
    (s.upc = .fin0 → exec .iscDisable s = .next { s with
      ph := .wait, xfq := some [⟨false, false, s.cfg.cmdLen, s.cfg.cmd.iscDisable⟩] }) ∧
    (s.upc = .upl0 → exec .lscInit s = .next { s with
      ph := .wait, xfq := some [⟨false, false, s.cfg.cmdLen, s.cfg.cmd.lscInit⟩]
      phase := if s.phase = .failed then .failed else .streaming }) ∧
    (s.upc = .rst5 → exec .readIdcode s = .next { s with
      ph := .wait, xfq := some [⟨false, false, s.cfg.cmdLen, s.cfg.cmd.readIdcode⟩, ⟨true, false, s.cfg.idReadLen, []⟩] }) ∧
    (s.upc = .upl4 → exec .lscReadStatus s = .next { s with
      ph := .wait, xfq := some [⟨false, false, s.cfg.cmdLen, s.cfg.cmd.lscReadStatus⟩, ⟨true, false, s.cfg.statusReadLen, []⟩] })

/-- The WAIT phase of a command on success: the request is cleared and control goes to the next micro-operation; a
read writes its register, little-endian, and UPL4 the three flags with it; nothing else changes (40_sequencer.md R137,
R138, R140, 41_reset.md R176, 43_upload.md R208, R210). -/
def Obligations.CommandsCompleteOnSuccess : Prop :=
  ∀ s : State, s.ph = .wait →
    (s.port.rsp = some (.ok []) →
      (s.upc = .rst1 → exec .activate s = .next { s with xfq := none, upc := .rst2, ph := .issue }) ∧
      (s.upc = .rst4 → exec .iscEnable s = .next { s with xfq := none, upc := .rst5, ph := .issue }) ∧
      (s.upc = .ers0 → exec .iscEnable s = .next { s with xfq := none, upc := .ers1, ph := .issue }) ∧
      (s.upc = .ers2 → exec .iscErase s = .next { s with xfq := none, upc := .ers3, ph := .issue }) ∧
      (s.upc = .fin0 → exec .iscDisable s = .next { s with xfq := none, upc := .fin1, ph := .issue }) ∧
      (s.upc = .upl0 → exec .lscInit s = .next { s with xfq := none, upc := .upl1, ph := .issue }) ∧
      (s.upc = .upl3 → exec .lscBitstreamBurst s = .next { s with xfq := none, upc := .upl4, ph := .issue })) ∧
    (∀ bytes : List Byte, s.port.rsp = some (.ok bytes) →
      (s.upc = .rst5 → bytes.length = s.cfg.idReadLen.toNat → exec .readIdcode s =
        .next { s with xfq := none, upc := .rst6, ph := .issue, idr := readWord .readIdcode bytes }) ∧
      (s.upc = .upl4 → bytes.length = s.cfg.statusReadLen.toNat → exec .lscReadStatus s =
        .next { s with
          xfq := none, upc := .upl5, ph := .issue
          sr := readWord .lscReadStatus bytes
          doneF := (readWord .lscReadStatus bytes).getLsbD s.cfg.doneBit.val
          busyF := (readWord .lscReadStatus bytes).getLsbD s.cfg.busyBit.val
          failF := (readWord .lscReadStatus bytes).getLsbD s.cfg.failBit.val })) ∧
    ∀ (k : Cmd) (b0 b1 b2 b3 : Byte), readWord k [b0, b1, b2, b3] = b3 ++ b2 ++ b1 ++ b0

/-- Taking an error: PHASE is FAILED and no request is pending; under a wrapped operation in RST the attempt is counted
and the next begins while attempts remain; otherwise the operation ends with the error and its detail; nothing else
changes (60_exceptions.md R280, 45_retry.md R253). -/
def Obligations.RaiseAbortsOrRetries : Prop :=
  ∀ (e : ResCode) (d : Word) (s : State),
    ((s.opr = 5 ∨ s.opr = 6) ∧ s.upc.inRst = true → s.att + 1 < s.cfg.maxResetAttempts →
      raiseError e d s =
        { s with phase := .failed, xfq := none, att := s.att + 1, upc := .rst0, ph := .issue }) ∧
    ((s.opr = 5 ∨ s.opr = 6) ∧ s.upc.inRst = true → ¬ s.att + 1 < s.cfg.maxResetAttempts →
      raiseError e d s =
        { s with
          phase := .failed, xfq := none, att := s.att + 1, resCode := e, resDetail := d, resValid := true
          upc := .idle, ph := .issue }) ∧
    (¬ ((s.opr = 5 ∨ s.opr = 6) ∧ s.upc.inRst = true) →
      raiseError e d s =
        { s with
          phase := .failed, xfq := none, resCode := e, resDetail := d, resValid := true
          upc := .idle, ph := .issue })

/-- Every transport micro-operation that is answered `ERR(code)` raises TRANSPORT with the code unchanged; at RST1 the
reset line is released first if RST_ON_ABORT says so (60_exceptions.md R271, 41_reset.md R173). -/
def Obligations.TransportErrorIsRaised : Prop :=
  ∀ (c : Cmd) (s : State) (code : Nat), s.upc.cmd? = some c → s.ph = .wait → s.port.rsp = some (.err code) →
    exec (Instr.ofCmd c) s =
      .next (raiseError .transport (errDetail s.cfg code)
        { s with rstl := if s.upc = .rst1 ∧ s.cfg.rstOnAbort = .release then false else s.rstl }) ∧
    (s.cfg.errW ≤ 32 → code < 2 ^ s.cfg.errW → (errDetail s.cfg code).toNat = code)

/-! ### Internal micro-operations -/

/-- RST0 drives the line active and begins a run, from any PHASE; RST2 drives it inactive (41_reset.md R172, R174). -/
def Obligations.LineMicroOperations : Prop :=
  ∀ s : State, s.port.hwRst = false → s.ph = .issue →
    (s.upc = .rst0 → step s = .next (nextPort
      { s with rstl := true, phase := .resetPending, loaded := false, upc := .rst1 })) ∧
    (s.upc = .rst2 → step s = .next (nextPort { s with rstl := false, upc := .rst3 }))

/-- A DELAY under a prompt environment (notes/assumptions/21.md), which gives a tick in each step that awaits one: n + 2
steps, none of them earlier at the next micro-operation, the delay shown, DLY left at 0, nothing else changed
(40_sequencer.md R139; what a tick does is DelayCountsTicks). -/
def Obligations.PromptDelayTakesItsSteps : Prop :=
  ∀ (s : State) (n : Nat) (e : Script), s.ph = .issue → s.upc.delay? s.cfg = some n →
    (∀ k, k < n + 2 → ∃ es t, serve k e s = some (es, t) ∧ t.upc = s.upc) ∧
    ∃ t, serve (n + 2) e s = some ([.delay n], t) ∧
      SameMachine { s with dly := 0, upc := s.upc.next } t

/-- A DELAY counts ticks, under any inputs without `hw_rst`: its ISSUE loads DLY; in WAIT a tick takes one from DLY > 0,
without a tick nothing changes, and DLY = 0 leaves whatever the tick is. So from WAIT with DLY = d it stays as long as
fewer than d ticks have come, and when the d-th has come the next step leaves with DLY = 0 and all else unchanged
(40_sequencer.md R139). -/
def Obligations.DelayCountsTicks : Prop :=
  ∀ (s : State) (n : Nat), s.upc.delay? s.cfg = some n → (∀ p ∈ s.port :: s.stim, p.hwRst = false) →
    (s.ph = .issue → step s = .next (nextPort { s with dly := n, ph := .wait })) ∧
    (s.ph = .wait → s.dly ≠ 0 → s.port.tick = true → step s = .next (nextPort { s with dly := s.dly - 1 })) ∧
    (s.ph = .wait → s.dly ≠ 0 → s.port.tick = false → step s = .next (nextPort s)) ∧
    (s.ph = .wait → s.dly = 0 → step s = .next (nextPort { s with upc := s.upc.next, ph := .issue })) ∧
    (s.ph = .wait → ∀ k, k ≤ s.stim.length + 1 →
      (ticks ((s.port :: s.stim).take k) ≤ s.dly → (k = 0 ∨ ticks ((s.port :: s.stim).take (k - 1)) < s.dly) →
        ∃ t, Sys2Proof.core.run k s = .next t ∧
          SameMachine { s with dly := s.dly - ticks ((s.port :: s.stim).take k) } t ∧
          (ticks ((s.port :: s.stim).take k) = s.dly →
            ∃ u, Sys2Proof.core.run (k + 1) s = .next u ∧
              SameMachine { s with dly := 0, upc := s.upc.next, ph := .issue } u)))

/-- RST6 compares all 32 bits of IDR: on a match RESET and RESET_RETRY end with OK and WRITE_INIT goes on to ERS0; else
IDENTITY_MISMATCH is raised with the value read (41_reset.md R177, 40_sequencer.md R147). -/
def Obligations.IdentityCheckDecides : Prop :=
  ∀ s : State, s.port.hwRst = false → s.upc = .rst6 → s.ph = .issue →
    (s.idr = s.cfg.expectedIdcode → s.opr = 6 → step s = .next (nextPort
      { s with phase := if s.phase = .failed then .failed else .identified, upc := .ers0 })) ∧
    (s.idr = s.cfg.expectedIdcode → s.opr ≠ 6 → step s = .next (nextPort
      { s with
        phase := if s.phase = .failed then .failed else .identified
        resCode := .ok, resDetail := 0, resValid := true, xfq := none, upc := .idle })) ∧
    (s.idr ≠ s.cfg.expectedIdcode → step s = .next (nextPort (raiseError .identityMismatch s.idr s)))

/-- A device that answers the identity read with one byte repeated never passes: IDR is the byte times 0x01010101 and
RESET ends with IDENTITY_MISMATCH, for every expected identity whose bytes are not all equal, 0x43002C01 among them;
whenever the response comes (`s` is the state of that step) and whatever the other inputs are (41_reset.md R178). -/
def Obligations.SentinelNeverPasses : Prop :=
  (∀ x : Byte, Config.hardware.expectedIdcode ≠ x ++ x ++ x ++ x) ∧
  ∀ (s : State) (v : Byte) (p : Ports), s.upc = .rst5 → s.ph = .wait → s.opr = 1 → s.cfg.idReadLen = 4 →
    (∀ x : Byte, s.cfg.expectedIdcode ≠ x ++ x ++ x ++ x) →
    s.port.hwRst = false → s.port.rsp = some (.ok [v, v, v, v]) → p.hwRst = false →
    ∃ t u, step s = .next t ∧ events s t = [] ∧ t.idr = v.setWidth 32 * 0x01010101 ∧
      step { t with port := p } = .next u ∧ events { t with port := p } u = [] ∧ u.idr = t.idr ∧
      EndedWith .identityMismatch (v.setWidth 32 * 0x01010101) u ∧ u.phase = .failed

/-- UPL2 reads the draw: the buffer is there and the burst follows, or the operation ends with ALLOCATION and detail 0
(43_upload.md R203). -/
def Obligations.AllocationDraw : Prop :=
  ∀ s : State, s.port.hwRst = false → s.upc = .upl2 → s.ph = .issue →
    (s.port.allocOk = true → step s = .next (nextPort { s with upc := .upl3 })) ∧
    (s.port.allocOk = false → step s = .next (nextPort
      { s with
        phase := .failed, xfq := none, resCode := .allocation, resDetail := 0, resValid := true, upc := .idle }))

/-- UPL5: success exactly when DONE is set, whatever BUSY and FAIL are; else UPLOAD_INCOMPLETE with the raw status word
(43_upload.md R212, R213). -/
def Obligations.DoneIsAuthoritative : Prop :=
  ∀ (s : State) (busy fail : Bool), s.port.hwRst = false → s.upc = .upl5 → s.ph = .issue →
    (s.doneF = true → step { s with busyF := busy, failF := fail } = .next (nextPort
      { s with
        busyF := busy, failF := fail
        phase := if s.phase = .failed then .failed else .verified
        resCode := .ok, resDetail := 0, resValid := true, xfq := none, upc := .idle })) ∧
    (s.doneF = false → step { s with busyF := busy, failF := fail } = .next (nextPort
      { s with
        busyF := busy, failF := fail, phase := .failed
        resCode := .uploadIncomplete, resDetail := s.sr, resValid := true, xfq := none, upc := .idle }))

/-- The status-bit decoder gives the three bits at DONE_BIT, BUSY_BIT and FAIL_BIT: words that agree there decode alike,
whatever the other 29 bits, and no others do (43_upload.md R211, 30_encoding.md R106). -/
def Obligations.OtherStatusBitsDoNotLeak : Prop :=
  ∀ (c : Config) (a b : Word),
    decodeStatus c a = (a.getLsbD c.doneBit.val, a.getLsbD c.busyBit.val, a.getLsbD c.failBit.val) ∧
    ((∀ i, i = c.doneBit.val ∨ i = c.busyBit.val ∨ i = c.failBit.val → a.getLsbD i = b.getLsbD i) ↔
      decodeStatus c a = decodeStatus c b)

/-- ERS4 and FIN1 end their operation with OK, FIN1 setting LOADED; QRY0 ends with the constant of the state query
(42_prepare_erase.md R191, 44_finalize_query.md R240, R242). -/
def Obligations.RoutinesEndWithOk : Prop :=
  ∀ s : State, s.port.hwRst = false → s.ph = .issue →
    (s.upc = .ers4 → step s = .next (nextPort
      { s with
        phase := if s.phase = .failed then .failed else .erased
        resCode := .ok, resDetail := 0, resValid := true, xfq := none, upc := .idle })) ∧
    (s.upc = .fin1 → step s = .next (nextPort
      { s with
        phase := if s.phase = .failed then .failed else .complete
        loaded := true, resCode := .ok, resDetail := 0, resValid := true, xfq := none, upc := .idle })) ∧
    (s.upc = .qry0 → step s = .next (nextPort
      { s with resCode := .ok, resDetail := s.cfg.stateOperating, resValid := true, xfq := none, upc := .idle }))

/-! ### The chunker -/

/-- The laws of the chunk function: the number of messages, their lengths, the total, the bytes in order, the
continuation flags, and what the lengths and the bytes depend on (43_upload.md R206). -/
def Obligations.ChunkLaws : Prop :=
  ∀ (c : Config) (img : Memory) (m t : Nat), 1 ≤ m → m ≤ 65535 → 1 ≤ t → c.prefixLen ≤ t →
    c.cmd.lscBitstreamBurst.length = c.prefixLen →
    let d := chunks (logicalByte c img) m t
    1 ≤ ceilDiv t m ∧ d.length = ceilDiv t m ∧
    (∀ (i : Nat) (h : i < d.length),
      d[i].rd = false ∧
      d[i].nostart = decide (1 ≤ i) ∧
      (i < ceilDiv t m - 1 → d[i].len.toNat = m) ∧
      (i = ceilDiv t m - 1 → d[i].len.toNat = t - (ceilDiv t m - 1) * m) ∧
      1 ≤ d[i].len.toNat ∧ d[i].len.toNat ≤ m ∧
      d[i].data.length = d[i].len.toNat) ∧
    (d.map (fun x => x.len.toNat)).sum = t ∧
    Request.written d = c.cmd.lscBitstreamBurst ++ (List.range (t - c.prefixLen)).map (Memory.read img) ∧
    (t ≤ m → ceilDiv t m = 1) ∧
    (∀ w : Nat → Byte, (chunks w m t).map (fun x => x.len) = d.map (fun x => x.len)) ∧
    (∀ img' : Memory, (∀ k, k < t - c.prefixLen → Memory.read img' k = Memory.read img k) →
      chunks (logicalByte c img') m t = d)

/-- The iterative chunker runs exactly N turns, its messages so far always carrying W up to OFF, and emits exactly
chunks(W, MAX_XFER), ending with OFF = TOT (43_upload.md R207). -/
def Obligations.ChunkLoopRefinesChunks : Prop :=
  ∀ (w : Nat → Byte) (m : BitVec 16) (tot : Nat) (cl : BitVec 16), 1 ≤ m.toNat → 1 ≤ tot →
    (∀ k, k < ceilDiv tot m.toNat →
      (chunkLoop w m tot k (chunkStart cl)).off = k * m.toNat ∧
      Request.written (chunkLoop w m tot k (chunkStart cl)).out = logicalBytes w 0 (k * m.toNat)) ∧
    (∀ k, ceilDiv tot m.toNat ≤ k →
      (chunkLoop w m tot k (chunkStart cl)).off = tot ∧
      (chunkLoop w m tot k (chunkStart cl)).cl =
        BitVec.ofNat 16 (chunkLen m.toNat tot (ceilDiv tot m.toNat - 1)) ∧
      (chunkLoop w m tot k (chunkStart cl)).out = chunks w m.toNat tot)

/-- The ISSUE phase of UPL3 presents one request whose written bytes are exactly the burst frame followed by the image,
every message within MAX_XFER and the first alone begun with a start condition; but for PH, XFQ and the dead registers
OFF and CL (whose values are the model's choice, notes/assumptions/10.md) nothing changes. The image is that of this
step (43_upload.md R204, R208, R209; notes/assumptions/23.md of a host that changes it). -/
def Obligations.BurstCarriesTheWholeImage : Prop :=
  ∀ s : State, s.upc = .upl3 → s.ph = .issue → s.cfg.wf = true → s.tot = s.len + s.cfg.prefixLen →
    ∃ r off cl, exec .lscBitstreamBurst s =
        .next { s with ph := .wait, xfq := some r, off := off, cl := cl } ∧
      Request.written r =
        s.cfg.cmd.lscBitstreamBurst ++ (List.range s.len).map (Memory.read s.port.img) ∧
      requestOk s.cfg r = true ∧ (∀ m ∈ r, m.rd = false) ∧ (∀ m ∈ r.tail, m.nostart = true)

/-! ### Hardware reset -/

/-- `hw_rst` in any state, an operation running or presented: the outputs and the control state take the values of
10_state.md R39, the request is withdrawn, no operation is accepted (70_reset_and_hazards.md R310, R311). The values of
the working registers are the model's choice and not stated here (notes/assumptions/1.md). -/
def Obligations.HardwareResetFromAnyState : Prop :=
  ∀ s : State, s.port.hwRst = true → ∃ t, step s = .next t ∧ t.upc = .idle ∧ t.ph = .issue ∧ t.xfq = none ∧
    t.rstl = false ∧ t.resValid = false ∧ t.resCode = .ok ∧ t.resDetail = 0 ∧ t.loaded = false ∧
    t.phase = .unreset ∧ t.cfg = s.cfg ∧ t.opReady = true ∧ t.xfReqValid = false

/-- The state after reset has the values of 10_state.md R39. That no operation is presented (the last clause) is the
model's choice of the input levels (notes/assumptions/18.md). -/
def Obligations.ResetStateValues : Prop :=
  State.reset.upc = .idle ∧ State.reset.ph = .issue ∧ State.reset.xfq = none ∧ State.reset.rstl = false ∧
  State.reset.resValid = false ∧ State.reset.resCode = .ok ∧ State.reset.resDetail = 0 ∧
  State.reset.loaded = false ∧ State.reset.phase = .unreset ∧ fetchBytes State.reset = none

/-- No unspecified reset value reaches an output or a decision: states that agree on everything a later step can read
before writing it step alike and go on agreeing, and states that differ from reset in working registers alone agree
so (10_state.md R42). -/
def Obligations.UnspecifiedRegistersNeverShow : Prop :=
  (∀ s s' : State, LiveEq s s' →
    (∀ t, step s = .next t → ∃ t', step s' = .next t' ∧ LiveEq t t') ∧
    (∀ f, step s = .fault f → step s' = .fault f)) ∧
  (∀ (opr : BitVec 3) (att len tot off : Nat) (cl : BitVec 16) (dly : Nat) (idr sr : Word) (d b f : Bool),
    LiveEq State.reset { State.reset with
      opr := opr, att := att, len := len, tot := tot, off := off, cl := cl, dly := dly, idr := idr, sr := sr
      doneF := d, busyF := b, failF := f })

/-! ### Whole operations, under a prompt environment

These statements run an operation under the prompt environment `drive`, which gives a response or a tick in the first
step in which it is awaited: the model's choice (notes/assumptions/21.md), since the rules cited bound no such time, so
none of these statements is a rule stated whole. A slower environment adds steps in which nothing changes
(NothingEnabledNothingChanges). -/

/-- QUERY_STATE, under a prompt environment (the model's choice, notes/assumptions/21.md): from any idle state, two
steps, no event, the result (OK, STATE_OPERATING) and nothing else (44_finalize_query.md R242). -/
def Obligations.QueryStateRuns : Prop :=
  ∀ (s : State) (e : Script), s.upc = .idle →
    ∃ t, exec .queryState s = .next t ∧
    ∃ u, serve 1 e t = some ([], u) ∧
      SameMachine
        { s with
          opr := 0, att := 0, xfq := none, ph := .issue
          resValid := true, resCode := .ok, resDetail := s.cfg.stateOperating } u

/-- FINALIZE, under a prompt environment (the model's choice, notes/assumptions/21.md): one request, ISC_DISABLE;
success sets LOADED and ends with OK; an error ends with TRANSPORT and its code, PHASE FAILED, LOADED unchanged,
nothing resent (44_finalize_query.md R240, R241). -/
def Obligations.FinalizeRuns : Prop :=
  ∀ (s : State) (e : Script) (rest : List Rsp), s.upc = .idle →
    ∃ t, exec .finalize s = .next t ∧
    (e.rsps = .ok [] :: rest →
      ∃ u, serve 3 e t = some ([.request (writeReq s.cfg .iscDisable)], u) ∧
        SameMachine
          { s with
            opr := 4, att := 0, xfq := none, ph := .issue, loaded := true
            phase := if s.phase = .failed then .failed else .complete
            resValid := true, resCode := .ok, resDetail := 0 } u) ∧
    (∀ code, e.rsps = .err code :: rest →
      ∃ u, serve 2 e t = some ([.request (writeReq s.cfg .iscDisable)], u) ∧
        SameMachine
          { s with
            opr := 4, att := 0, xfq := none, ph := .issue, phase := .failed
            resValid := true, resCode := .transport, resDetail := errDetail s.cfg code } u)

/-- PREPARE_ERASE, under a prompt environment (the model's choice, notes/assumptions/21.md): its three outcomes with
their requests, delays and results; the line, LOADED, IDR, SR and the flags are not touched (42_prepare_erase.md
R190). -/
def Obligations.PrepareEraseRuns : Prop :=
  ∀ (s : State) (e : Script) (r : EraseRun) (rest : List Rsp), s.upc = .idle → e.rsps = r.rsps ++ rest →
    ∃ t, exec .prepareErase s = .next t ∧
    ∃ u, serve (r.steps s.cfg) e t = some (r.trace s.cfg, u) ∧
      EndedWith (r.result s.cfg).1 (r.result s.cfg).2 u ∧
      u.phase = (if r = .done ∧ s.phase ≠ .failed then .erased else .failed) ∧
      u.opr = 2 ∧ u.att = 0 ∧ u.rstl = s.rstl ∧ u.loaded = s.loaded ∧ u.idr = s.idr ∧ UploadPartEq s u

/-- RESET, under a prompt environment (the model's choice, notes/assumptions/21.md): one attempt, its outcomes with
their requests and results, LOADED cleared, the level of the line at the end (41_reset.md R170). -/
def Obligations.ResetRuns : Prop :=
  ∀ (s : State) (e : Script) (a : Attempt) (rest : List Rsp), s.upc = .idle → a.fits s.cfg = true →
    e.rsps = a.rsps ++ rest →
    ∃ t, exec .reset s = .next t ∧
    ∃ u, serve (a.steps s.cfg) e t = some (a.trace s.cfg, u) ∧
      (a.error s.cfg = none → EndedWith .ok 0 u ∧ u.phase = .identified) ∧
      (∀ x, a.error s.cfg = some x → EndedWith x.1 x.2 u ∧ u.phase = .failed) ∧
      u.opr = 1 ∧ u.att = 0 ∧ u.loaded = false ∧ u.rstl = a.rstl s.cfg ∧ u.idr = a.idr s.idr ∧ UploadPartEq s u

/-- RESET_RETRY, under a prompt environment (the model's choice, notes/assumptions/21.md): attempts that fail for
whatever reason are repeated at once while fewer than MAX_RESET_ATTEMPTS have failed; it ends at the first success
with OK, or with the error of the last attempt; ATT counts the failures (45_retry.md R251, R254, R256, R257). -/
def Obligations.ResetRetryRuns : Prop :=
  ∀ (s : State) (e : Script) (fails : List Attempt) (last : Attempt) (rest : List Rsp), s.upc = .idle →
    (∀ a ∈ fails ++ [last], a.fits s.cfg = true) →
    (∀ a ∈ fails, (a.error s.cfg).isSome = true) → fails.length < s.cfg.maxResetAttempts →
    (last.error s.cfg = none ∨ fails.length + 1 = s.cfg.maxResetAttempts) →
    e.rsps = (fails ++ [last]).flatMap Attempt.rsps ++ rest →
    ∃ t, exec .resetRetry s = .next t ∧
    ∃ u, serve (((fails ++ [last]).map (Attempt.steps s.cfg)).sum) e t =
        some ((fails ++ [last]).flatMap (Attempt.trace s.cfg), u) ∧
      (last.error s.cfg = none → EndedWith .ok 0 u ∧ u.phase = .identified ∧ u.att = fails.length) ∧
      (∀ x, last.error s.cfg = some x → EndedWith x.1 x.2 u ∧ u.phase = .failed ∧ u.att = fails.length + 1) ∧
      u.opr = 5 ∧ u.loaded = false ∧ u.rstl = last.rstl s.cfg ∧
      u.idr = (fails ++ [last]).foldl Attempt.idr s.idr ∧ UploadPartEq s u

/-- WRITE_INIT, under a prompt environment (the model's choice, notes/assumptions/21.md): the retried reset, then on
success one erase, which is never retried; when every attempt fails no erase command is sent (45_retry.md R252, R255).
-/
def Obligations.WriteInitRuns : Prop :=
  ∀ (s : State) (e : Script) (fails : List Attempt) (last : Attempt) (r : EraseRun) (rest : List Rsp),
    s.upc = .idle → (∀ a ∈ fails ++ [last], a.fits s.cfg = true) →
    (∀ a ∈ fails, (a.error s.cfg).isSome = true) → fails.length < s.cfg.maxResetAttempts →
    ∃ t, exec .writeInit s = .next t ∧
    (last.error s.cfg = none → e.rsps = (fails ++ [last]).flatMap Attempt.rsps ++ (r.rsps ++ rest) →
      ∃ u, serve (((fails ++ [last]).map (Attempt.steps s.cfg)).sum + r.steps s.cfg) e t =
          some ((fails ++ [last]).flatMap (Attempt.trace s.cfg) ++ r.trace s.cfg, u) ∧
        EndedWith (r.result s.cfg).1 (r.result s.cfg).2 u ∧ u.phase = (if r = .done then .erased else .failed) ∧
        u.att = fails.length ∧ u.opr = 6 ∧ u.loaded = false ∧ u.rstl = false ∧
        u.idr = (fails ++ [last]).foldl Attempt.idr s.idr ∧ UploadPartEq s u) ∧
    (∀ x, last.error s.cfg = some x → fails.length + 1 = s.cfg.maxResetAttempts →
      e.rsps = (fails ++ [last]).flatMap Attempt.rsps ++ rest →
      ∃ u, serve (((fails ++ [last]).map (Attempt.steps s.cfg)).sum) e t =
          some ((fails ++ [last]).flatMap (Attempt.trace s.cfg), u) ∧
        EndedWith x.1 x.2 u ∧ u.phase = .failed ∧ u.att = fails.length + 1 ∧ u.opr = 6 ∧ u.loaded = false ∧
        u.rstl = last.rstl s.cfg ∧ u.idr = (fails ++ [last]).foldl Attempt.idr s.idr ∧ UploadPartEq s u)

/-- UPLOAD, under a prompt environment (the model's choice, notes/assumptions/21.md): its outcomes with their requests
and results, the burst carrying chunks(W, MAX_XFER) and the status word read once; RSTL, LOADED and IDR are not
touched (43_upload.md R200). That no instruction writes the image, an input that `drive` sets before each step, is
InstructionsWriteNoMemory. -/
def Obligations.UploadRuns : Prop :=
  ∀ (s : State) (e : Script) (n : Nat) (r : UploadRun) (rest : List Rsp), s.upc = .idle →
    r.fits s.cfg e.allocOk = true → e.rsps = r.rsps ++ rest →
    ∃ t, exec (.upload n) s = .next t ∧
    ∃ u, serve (r.steps s.cfg) e t = some (r.trace s.cfg e.img n, u) ∧
      EndedWith (r.result s.cfg).1 (r.result s.cfg).2 u ∧
      u.phase = (if r.done s.cfg = true ∧ s.phase ≠ .failed then .verified else .failed) ∧
      UploadFrame n s u ∧ r.statusAfter s u

/-- A host line presented to the idle block is the operation its mnemonic names, with the length of its image, and the
expansions of RUN and CONFIGURE are in the framework's order (30_encoding.md R113, R114, 70_reset_and_hazards.md R314).
-/
def Obligations.HostLinesPresentTheirOperation : Prop :=
  (∀ (l : HostLine) (s : State), s.upc = .idle → l.instr.wf s.cfg = true →
    fetched (l.present s) = some l.instr ∧
    ∃ t, exec l.instr (l.present s) = .next t ∧ step (l.present s) = .next (nextPort t)) ∧
  (∀ image : Image, inOrder (Pseudo.expand (.run image)) = true ∧ inOrder (Pseudo.expand (.configure image)) = true)

/-! ### Rules of the whole machine -/

/-- The complete list of transfers: from each address to the targets of 40_sequencer.md R144 and no other; back to RST0
only by a retry, to ERS0 from RST6 only for WRITE_INIT after a match. -/
def Obligations.ControlTransfersAreListed : Prop :=
  ∀ s t : State, s.port.hwRst = false → step s = .next t →
    (t.upc = s.upc ∨ t.upc ∈ s.upc.targets) ∧
    (s.upc ≠ .idle → t.upc = .rst0 → s.upc ≠ .rst0 →
      (s.opr = 5 ∨ s.opr = 6) ∧ s.upc.inRst = true ∧ s.att + 1 < s.cfg.maxResetAttempts ∧ t.att = s.att + 1) ∧
    (s.upc = .rst6 → t.upc = .ers0 → s.opr = 6 ∧ s.idr = s.cfg.expectedIdcode)

/-- An operation executes a bounded number of steps: every enabled step of a running operation makes the bound smaller,
so it ends unless it waits for ever (40_sequencer.md R144, 70_reset_and_hazards.md R322). -/
def Obligations.OperationsEnd : Prop :=
  ∀ s t : State, s.port.hwRst = false → s.upc ≠ .idle → enabled s = true → step s = .next t →
    stepsLeft t < stepsLeft s

/-- Which operation can end with which result, the impossible combinations of 60_exceptions.md R276. -/
def Obligations.ResultsPerOperation : Prop :=
  ∀ s t : State, RetryInv s → s.port.hwRst = false → s.upc ≠ .idle → step s = .next t → t.upc = .idle →
    t.resValid = true ∧ t.opr = s.opr ∧ mayEnd s.opr t.resCode = true

/-- The detail of each result; a code of at most 32 bits is in it unchanged (30_encoding.md R109). -/
def Obligations.ResultDetails : Prop :=
  ∀ s t : State, RetryInv s → s.port.hwRst = false → s.upc ≠ .idle → step s = .next t → t.upc = .idle →
    (t.resCode = .ok → t.resDetail = if s.opr = 0 then s.cfg.stateOperating else 0) ∧
    (t.resCode = .transport → ∃ code, s.port.rsp = some (.err code) ∧ t.resDetail = errDetail s.cfg code ∧
      (s.cfg.errW ≤ 32 → code < 2 ^ s.cfg.errW → t.resDetail.toNat = code)) ∧
    (t.resCode = .identityMismatch → t.resDetail = s.idr) ∧
    (t.resCode = .uploadIncomplete → t.resDetail = s.sr) ∧
    (t.resCode = .allocation → t.resDetail = 0)

/-- Each register is written by the events the spec names and by no other: IDR by a successful RST5 (10_state.md R27), SR
and the flags by a successful UPL4 (R28, R29), RSTL by RST0, RST2 and a failing RST1 under `release` (R31), LOADED by
RST0 and FIN1 (R33), OPR by acceptance (R22), ATT by acceptance and by an error in RST under a wrapped operation (R23,
45_retry.md R253), LEN and TOT by acceptance of UPLOAD (R24), OFF and CL by UPL3's ISSUE (R25), DLY by a DELAY (R26),
RES_CODE and RES_DETAIL by the end of an operation, RES_VALID by that and by acceptance (R32). -/
def Obligations.RegistersAreWrittenWhereNamed : Prop :=
  ∀ s t : State, s.port.hwRst = false → step s = .next t →
    t.cfg = s.cfg ∧
    (t.idr ≠ s.idr → s.upc = .rst5 ∧ s.ph = .wait ∧ ∃ b, s.port.rsp = some (.ok b) ∧ t.idr = readWord .readIdcode b) ∧
    (¬ (t.sr = s.sr ∧ t.doneF = s.doneF ∧ t.busyF = s.busyF ∧ t.failF = s.failF) →
      s.upc = .upl4 ∧ s.ph = .wait ∧
        ∃ b, s.port.rsp = some (.ok b) ∧ t.sr = readWord .lscReadStatus b ∧ FlagsDecoded t) ∧
    (t.rstl ≠ s.rstl → (s.upc = .rst0 ∧ t.rstl = true) ∨ (s.upc = .rst2 ∧ t.rstl = false) ∨
      (s.upc = .rst1 ∧ s.ph = .wait ∧ s.cfg.rstOnAbort = .release ∧ t.rstl = false ∧
        ∃ code, s.port.rsp = some (.err code))) ∧
    (t.loaded ≠ s.loaded → (s.upc = .rst0 ∧ t.loaded = false) ∨ (s.upc = .fin1 ∧ t.loaded = true)) ∧
    (s.upc = .idle → s.port.opValid = false → SameMachine s t) ∧
    (t.opr ≠ s.opr → s.upc = .idle ∧ t.opr = s.port.op) ∧
    (t.att ≠ s.att → (s.upc = .idle ∧ t.att = 0) ∨
      ((s.opr = 5 ∨ s.opr = 6) ∧ s.upc.inRst = true ∧ t.att = s.att + 1 ∧
        ((s.ph = .wait ∧ s.upc.cmd?.isSome = true ∧ ∃ code, s.port.rsp = some (.err code)) ∨
          (s.upc = .rst6 ∧ s.ph = .issue ∧ s.idr ≠ s.cfg.expectedIdcode)))) ∧
    (¬ (t.len = s.len ∧ t.tot = s.tot) → s.upc = .idle ∧ s.port.op = 3 ∧ t.len = portLen s) ∧
    (¬ (t.off = s.off ∧ t.cl = s.cl) → s.upc = .upl3 ∧ s.ph = .issue) ∧
    (t.dly ≠ s.dly → (∃ n, s.upc.delay? s.cfg = some n ∧
      ((s.ph = .issue ∧ t.dly = n) ∨ (s.ph = .wait ∧ s.port.tick = true ∧ t.dly + 1 = s.dly)))) ∧
    (¬ (t.resCode = s.resCode ∧ t.resDetail = s.resDetail) → t.upc = .idle ∧ t.resValid = true) ∧
    (t.resValid ≠ s.resValid →
      (s.upc = .idle ∧ t.upc ≠ .idle ∧ t.resValid = false) ∨ (t.upc = .idle ∧ t.resValid = true))

/-- PHASE changes only at the events of 10_state.md R37, and FAILED is left only by RST0. -/
def Obligations.PhaseChangesAsListed : Prop :=
  ∀ s t : State, s.port.hwRst = false → step s = .next t → t.phase ≠ s.phase →
    (s.phase = .failed → s.upc = .rst0) ∧
    ((s.upc = .rst0 ∧ t.phase = .resetPending) ∨
      (s.upc = .rst6 ∧ s.idr = s.cfg.expectedIdcode ∧ t.phase = .identified) ∨
      (s.upc = .ers4 ∧ t.phase = .erased) ∨
      (s.upc = .upl0 ∧ s.ph = .issue ∧ t.phase = .streaming) ∨
      (s.upc = .upl5 ∧ s.doneF = true ∧ t.phase = .verified) ∨
      (s.upc = .fin1 ∧ t.phase = .complete) ∨
      (t.phase = .failed ∧
        ((s.ph = .wait ∧ s.upc.cmd?.isSome = true ∧ ∃ code, s.port.rsp = some (.err code)) ∨
          (s.upc = .rst6 ∧ s.idr ≠ s.cfg.expectedIdcode) ∨ (s.upc = .upl5 ∧ s.doneF = false) ∨
          (s.upc = .upl2 ∧ s.port.allocOk = false))))

/-- A request that appears has one of the three shapes, at the micro-operations that use it; ERS issues no read
(20_memory.md R66, 42_prepare_erase.md R192). -/
def Obligations.RequestsHaveThreeShapes : Prop :=
  ∀ (s t : State) (r : Request), s.port.hwRst = false → step s = .next t → t.xfq = some r → s.xfq ≠ some r →
    s.ph = .issue ∧ t.ph = .wait ∧ t.upc = s.upc ∧
    ((s.upc = .rst1 ∧ r = writeReq s.cfg .activate) ∨ (s.upc = .rst4 ∧ r = writeReq s.cfg .iscEnable) ∨
      (s.upc = .ers0 ∧ r = writeReq s.cfg .iscEnable) ∨ (s.upc = .ers2 ∧ r = writeReq s.cfg .iscErase) ∨
      (s.upc = .upl0 ∧ r = writeReq s.cfg .lscInit) ∨ (s.upc = .fin0 ∧ r = writeReq s.cfg .iscDisable) ∨
      (s.upc = .rst5 ∧ r = writeReadReq s.cfg .readIdcode s.cfg.idReadLen) ∨
      (s.upc = .upl4 ∧ r = writeReadReq s.cfg .lscReadStatus s.cfg.statusReadLen) ∨
      (s.upc = .upl3 ∧ r = chunks (logicalByte s.cfg s.port.img) s.cfg.maxXfer.toNat s.tot))

/-! ### Invariants -/

/-- Every step keeps the agreement of UPC, PH, XFQ and RES_VALID (10_state.md R21, R30, R32). -/
def Obligations.StepKeepsControlInv : Prop :=
  ∀ s t : State, ControlInv s → step s = .next t → ControlInv t

/-- Every step keeps OPR with the routine that runs, ATT below the bound while an operation runs and at most the bound when
one has ended (10_state.md R22, R23, 45_retry.md R257). -/
def Obligations.StepKeepsRetryInv : Prop :=
  ∀ s t : State, RetryInv s → step s = .next t → RetryInv t

/-- Every step keeps the level of the reset line and PHASE in routine RST (41_reset.md R171, 10_state.md R37). -/
def Obligations.StepKeepsLineInv : Prop :=
  ∀ s t : State, LineInv s → step s = .next t → LineInv t

/-- Every step keeps, where they are live, the flags the decoded SR, TOT = LEN + PREFIX_LEN and DLY within its parameter;
and every step without `hw_rst` keeps the flags the decoded SR wherever they are so (10_state.md R24, R26, R29). -/
def Obligations.StepKeepsRegisterInv : Prop :=
  (∀ s t : State, RegisterInv s → step s = .next t → RegisterInv t) ∧
  (∀ s t : State, s.port.hwRst = false → FlagsDecoded s → step s = .next t → FlagsDecoded t)

/-- Every step keeps the pending request one that may be emitted, no message above MAX_XFER (30_encoding.md R101,
20_memory.md R69). -/
def Obligations.StepKeepsRequestInv : Prop :=
  ∀ s t : State, RequestInv s → step s = .next t → RequestInv t

/-- The state after reset meets every invariant, by the values of 10_state.md R39 and the parameters of the hardware; no
clause rests on the value of a working register (notes/assumptions/1.md). That the image on the port is in canonical
form is the model's choice of the input levels (notes/assumptions/18.md). -/
def Obligations.ResetMeetsTheInvariants : Prop :=
  ControlInv State.reset ∧ RetryInv State.reset ∧ LineInv State.reset ∧ RegisterInv State.reset ∧
  RequestInv State.reset ∧ State.reset.port.img.wf = true
end

