-- ==== Sys2Proof/Laws/Memory.lean ====
section
/-! SUPPORT. The laws of memory: a read after a write, and the canonical form kept by every operation. -/

namespace Sys2Proof.Machine

theorem Memory.read_below {m : Memory} {lo a : Nat} (h : Memory.wfFrom lo m = true) (ha : a < lo) :
    Memory.read m a = unlisted := by
  induction m generalizing lo with
  | nil => rfl
  | cons kb m ih =>
    obtain ⟨k, b⟩ := kb
    simp only [Memory.wfFrom, Bool.and_eq_true, decide_eq_true_eq] at h
    rw [Memory.read, if_neg (by omega)]
    exact ih h.2 (by omega)

theorem Memory.wfFrom_mono {m : Memory} {lo lo' : Nat} (h : Memory.wfFrom lo m = true) (hl : lo' ≤ lo) :
    Memory.wfFrom lo' m = true := by
  cases m with
  | nil => rfl
  | cons kb m =>
    obtain ⟨k, b⟩ := kb
    simp only [Memory.wfFrom, Bool.and_eq_true, decide_eq_true_eq] at h ⊢
    exact ⟨⟨by omega, h.1.2⟩, h.2⟩

/-- Writing keeps the canonical form. -/
theorem Memory.wfFrom_write {m : Memory} {lo a : Nat} (b : Byte) (h : Memory.wfFrom lo m = true) (hl : lo ≤ a) :
    Memory.wfFrom lo (Memory.write m a b) = true := by
  induction m generalizing lo with
  | nil =>
    unfold Memory.write
    split
    · rfl
    · next hb => simp [Memory.wfFrom, hl, hb]
  | cons kc m ih =>
    obtain ⟨k, c⟩ := kc
    simp only [Memory.wfFrom, Bool.and_eq_true, decide_eq_true_eq] at h
    obtain ⟨⟨h1, h3⟩, h4⟩ := h
    unfold Memory.write
    split
    · next hak =>
      split
      · simp [Memory.wfFrom, h1, h4]; simpa using h3
      · next hb =>
        simp only [Memory.wfFrom, Bool.and_eq_true, decide_eq_true_eq]
        exact ⟨⟨hl, by simpa using hb⟩, ⟨by omega, h3⟩, h4⟩
    · split
      · next hne hak =>
        split
        · exact Memory.wfFrom_mono h4 (by omega)
        · next hb =>
          simp only [Memory.wfFrom, Bool.and_eq_true, decide_eq_true_eq]
          subst hak
          exact ⟨⟨hl, by simpa using hb⟩, h4⟩
      · simp only [Memory.wfFrom, Bool.and_eq_true, decide_eq_true_eq]
        exact ⟨⟨h1, h3⟩, ih h4 (by omega)⟩

theorem Memory.wf_write {m : Memory} {a : Nat} (b : Byte) (h : m.wf = true) :
    Memory.wf (Memory.write m a b) = true :=
  Memory.wfFrom_write b h (Nat.zero_le a)

/-- Loading bytes keeps the canonical form. -/
theorem Memory.wf_load {m : Memory} {a : Nat} {bs : List Byte} (h : m.wf = true) :
    Memory.wf (Memory.load m a bs) = true := by
  induction bs generalizing m a with
  | nil => exact h
  | cons b bs ih => exact ih (Memory.wf_write b h)

/-- Writing inside the space keeps the entries inside. -/
theorem Memory.inSpace_write {c : Config} {m : Memory} {a : Nat} (b : Byte) (h : m.inSpace c = true)
    (ha : a < imgSpace c) : Memory.inSpace c (Memory.write m a b) = true := by
  unfold Memory.inSpace at h ⊢
  induction m with
  | nil =>
    unfold Memory.write
    split <;> simp [ha]
  | cons kc m ih =>
    obtain ⟨k, d⟩ := kc
    simp only [List.all_cons, Bool.and_eq_true, decide_eq_true_eq] at h
    have hm := ih h.2
    unfold Memory.write
    repeat' split
    all_goals simp only [List.all_cons, h.1, h.2, ha, hm, decide_true, Bool.and_self]

/-- A read after a write to the same address. -/
theorem Memory.read_write_same {m : Memory} {lo a : Nat} (b : Byte) (h : Memory.wfFrom lo m = true) :
    Memory.read (Memory.write m a b) a = b := by
  induction m generalizing lo with
  | nil =>
    unfold Memory.write
    split
    · next hb => rw [hb]; rfl
    · simp [Memory.read]
  | cons kc m ih =>
    obtain ⟨k, c⟩ := kc
    simp only [Memory.wfFrom, Bool.and_eq_true, decide_eq_true_eq] at h
    unfold Memory.write
    split
    · next hak =>
      split
      · next hb => rw [Memory.read, if_neg (by omega), Memory.read_below h.2 (by omega), hb]
      · simp [Memory.read]
    · split
      · next hne hak =>
        split
        · next hb => rw [Memory.read_below h.2 (by omega), hb]
        · simp [Memory.read]
      · next hne hak => rw [Memory.read, if_neg (fun e => hak e.symm)]; exact ih h.2

/-- A write leaves every other address alone. -/
theorem Memory.read_write_other {m : Memory} {a a' : Nat} (b : Byte) (hne : a' ≠ a) :
    Memory.read (Memory.write m a b) a' = Memory.read m a' := by
  induction m with
  | nil =>
    unfold Memory.write
    split
    · rfl
    · simp [Memory.read, hne.symm]
  | cons kc m ih =>
    obtain ⟨k, c⟩ := kc
    unfold Memory.write
    split
    · split
      · rfl
      · rw [Memory.read, if_neg hne.symm]
    · split
      · next hak =>
        subst hak
        split
        · rw [Memory.read, if_neg hne.symm]
        · rw [Memory.read, if_neg hne.symm, Memory.read, if_neg hne.symm]
      · rw [Memory.read, Memory.read, ih]

theorem Memory.wf_reset : State.reset.port.img.wf = true := rfl

end Sys2Proof.Machine
end

