-- ==== Sys2Proof/Laws/State.lean ====
section
/-! SUPPORT. What each named update does to each field of State, one lemma per field, so that no later proof unfolds a
record update. An update that a condition decides has its lemmas for the fields the condition leaves alone; the
others are in Laws/Ops.lean. -/

namespace Sys2Proof.Machine

/-! ### `goto` -/

@[simp] theorem goto_cfg (u : Upc) (s : State) : (goto u s).cfg = s.cfg := rfl
@[simp] theorem goto_port (u : Upc) (s : State) : (goto u s).port = s.port := rfl
@[simp] theorem goto_stim (u : Upc) (s : State) : (goto u s).stim = s.stim := rfl
@[simp] theorem goto_upc (u : Upc) (s : State) : (goto u s).upc = u := rfl
@[simp] theorem goto_ph (u : Upc) (s : State) : (goto u s).ph = .issue := rfl
@[simp] theorem goto_opr (u : Upc) (s : State) : (goto u s).opr = s.opr := rfl
@[simp] theorem goto_att (u : Upc) (s : State) : (goto u s).att = s.att := rfl
@[simp] theorem goto_len (u : Upc) (s : State) : (goto u s).len = s.len := rfl
@[simp] theorem goto_tot (u : Upc) (s : State) : (goto u s).tot = s.tot := rfl
@[simp] theorem goto_off (u : Upc) (s : State) : (goto u s).off = s.off := rfl
@[simp] theorem goto_cl (u : Upc) (s : State) : (goto u s).cl = s.cl := rfl
@[simp] theorem goto_dly (u : Upc) (s : State) : (goto u s).dly = s.dly := rfl
@[simp] theorem goto_idr (u : Upc) (s : State) : (goto u s).idr = s.idr := rfl
@[simp] theorem goto_sr (u : Upc) (s : State) : (goto u s).sr = s.sr := rfl
@[simp] theorem goto_doneF (u : Upc) (s : State) : (goto u s).doneF = s.doneF := rfl
@[simp] theorem goto_busyF (u : Upc) (s : State) : (goto u s).busyF = s.busyF := rfl
@[simp] theorem goto_failF (u : Upc) (s : State) : (goto u s).failF = s.failF := rfl
@[simp] theorem goto_xfq (u : Upc) (s : State) : (goto u s).xfq = s.xfq := rfl
@[simp] theorem goto_rstl (u : Upc) (s : State) : (goto u s).rstl = s.rstl := rfl
@[simp] theorem goto_resValid (u : Upc) (s : State) : (goto u s).resValid = s.resValid := rfl
@[simp] theorem goto_resCode (u : Upc) (s : State) : (goto u s).resCode = s.resCode := rfl
@[simp] theorem goto_resDetail (u : Upc) (s : State) : (goto u s).resDetail = s.resDetail := rfl
@[simp] theorem goto_loaded (u : Upc) (s : State) : (goto u s).loaded = s.loaded := rfl
@[simp] theorem goto_phase (u : Upc) (s : State) : (goto u s).phase = s.phase := rfl

/-! ### `advance` -/

@[simp] theorem advance_cfg (p : Phase) (s : State) : (advance p s).cfg = s.cfg := rfl
@[simp] theorem advance_port (p : Phase) (s : State) : (advance p s).port = s.port := rfl
@[simp] theorem advance_stim (p : Phase) (s : State) : (advance p s).stim = s.stim := rfl
@[simp] theorem advance_upc (p : Phase) (s : State) : (advance p s).upc = s.upc := rfl
@[simp] theorem advance_ph (p : Phase) (s : State) : (advance p s).ph = s.ph := rfl
@[simp] theorem advance_opr (p : Phase) (s : State) : (advance p s).opr = s.opr := rfl
@[simp] theorem advance_att (p : Phase) (s : State) : (advance p s).att = s.att := rfl
@[simp] theorem advance_len (p : Phase) (s : State) : (advance p s).len = s.len := rfl
@[simp] theorem advance_tot (p : Phase) (s : State) : (advance p s).tot = s.tot := rfl
@[simp] theorem advance_off (p : Phase) (s : State) : (advance p s).off = s.off := rfl
@[simp] theorem advance_cl (p : Phase) (s : State) : (advance p s).cl = s.cl := rfl
@[simp] theorem advance_dly (p : Phase) (s : State) : (advance p s).dly = s.dly := rfl
@[simp] theorem advance_idr (p : Phase) (s : State) : (advance p s).idr = s.idr := rfl
@[simp] theorem advance_sr (p : Phase) (s : State) : (advance p s).sr = s.sr := rfl
@[simp] theorem advance_doneF (p : Phase) (s : State) : (advance p s).doneF = s.doneF := rfl
@[simp] theorem advance_busyF (p : Phase) (s : State) : (advance p s).busyF = s.busyF := rfl
@[simp] theorem advance_failF (p : Phase) (s : State) : (advance p s).failF = s.failF := rfl
@[simp] theorem advance_xfq (p : Phase) (s : State) : (advance p s).xfq = s.xfq := rfl
@[simp] theorem advance_rstl (p : Phase) (s : State) : (advance p s).rstl = s.rstl := rfl
@[simp] theorem advance_resValid (p : Phase) (s : State) : (advance p s).resValid = s.resValid := rfl
@[simp] theorem advance_resCode (p : Phase) (s : State) : (advance p s).resCode = s.resCode := rfl
@[simp] theorem advance_resDetail (p : Phase) (s : State) : (advance p s).resDetail = s.resDetail := rfl
@[simp] theorem advance_loaded (p : Phase) (s : State) : (advance p s).loaded = s.loaded := rfl
@[simp] theorem advance_phase (p : Phase) (s : State) : (advance p s).phase = if s.phase = .failed then .failed else p := rfl

/-! ### `gotoNext` -/

@[simp] theorem gotoNext_cfg (s : State) : (gotoNext s).cfg = s.cfg := rfl
@[simp] theorem gotoNext_port (s : State) : (gotoNext s).port = s.port := rfl
@[simp] theorem gotoNext_stim (s : State) : (gotoNext s).stim = s.stim := rfl
@[simp] theorem gotoNext_upc (s : State) : (gotoNext s).upc = s.upc.next := rfl
@[simp] theorem gotoNext_ph (s : State) : (gotoNext s).ph = .issue := rfl
@[simp] theorem gotoNext_opr (s : State) : (gotoNext s).opr = s.opr := rfl
@[simp] theorem gotoNext_att (s : State) : (gotoNext s).att = s.att := rfl
@[simp] theorem gotoNext_len (s : State) : (gotoNext s).len = s.len := rfl
@[simp] theorem gotoNext_tot (s : State) : (gotoNext s).tot = s.tot := rfl
@[simp] theorem gotoNext_off (s : State) : (gotoNext s).off = s.off := rfl
@[simp] theorem gotoNext_cl (s : State) : (gotoNext s).cl = s.cl := rfl
@[simp] theorem gotoNext_dly (s : State) : (gotoNext s).dly = s.dly := rfl
@[simp] theorem gotoNext_idr (s : State) : (gotoNext s).idr = s.idr := rfl
@[simp] theorem gotoNext_sr (s : State) : (gotoNext s).sr = s.sr := rfl
@[simp] theorem gotoNext_doneF (s : State) : (gotoNext s).doneF = s.doneF := rfl
@[simp] theorem gotoNext_busyF (s : State) : (gotoNext s).busyF = s.busyF := rfl
@[simp] theorem gotoNext_failF (s : State) : (gotoNext s).failF = s.failF := rfl
@[simp] theorem gotoNext_xfq (s : State) : (gotoNext s).xfq = s.xfq := rfl
@[simp] theorem gotoNext_rstl (s : State) : (gotoNext s).rstl = s.rstl := rfl
@[simp] theorem gotoNext_resValid (s : State) : (gotoNext s).resValid = s.resValid := rfl
@[simp] theorem gotoNext_resCode (s : State) : (gotoNext s).resCode = s.resCode := rfl
@[simp] theorem gotoNext_resDetail (s : State) : (gotoNext s).resDetail = s.resDetail := rfl
@[simp] theorem gotoNext_loaded (s : State) : (gotoNext s).loaded = s.loaded := rfl
@[simp] theorem gotoNext_phase (s : State) : (gotoNext s).phase = s.phase := rfl

/-! ### `finish` -/

@[simp] theorem finish_cfg (c : ResCode) (d : Word) (s : State) : (finish c d s).cfg = s.cfg := rfl
@[simp] theorem finish_port (c : ResCode) (d : Word) (s : State) : (finish c d s).port = s.port := rfl
@[simp] theorem finish_stim (c : ResCode) (d : Word) (s : State) : (finish c d s).stim = s.stim := rfl
@[simp] theorem finish_upc (c : ResCode) (d : Word) (s : State) : (finish c d s).upc = .idle := rfl
@[simp] theorem finish_ph (c : ResCode) (d : Word) (s : State) : (finish c d s).ph = .issue := rfl
@[simp] theorem finish_opr (c : ResCode) (d : Word) (s : State) : (finish c d s).opr = s.opr := rfl
@[simp] theorem finish_att (c : ResCode) (d : Word) (s : State) : (finish c d s).att = s.att := rfl
@[simp] theorem finish_len (c : ResCode) (d : Word) (s : State) : (finish c d s).len = s.len := rfl
@[simp] theorem finish_tot (c : ResCode) (d : Word) (s : State) : (finish c d s).tot = s.tot := rfl
@[simp] theorem finish_off (c : ResCode) (d : Word) (s : State) : (finish c d s).off = s.off := rfl
@[simp] theorem finish_cl (c : ResCode) (d : Word) (s : State) : (finish c d s).cl = s.cl := rfl
@[simp] theorem finish_dly (c : ResCode) (d : Word) (s : State) : (finish c d s).dly = s.dly := rfl
@[simp] theorem finish_idr (c : ResCode) (d : Word) (s : State) : (finish c d s).idr = s.idr := rfl
@[simp] theorem finish_sr (c : ResCode) (d : Word) (s : State) : (finish c d s).sr = s.sr := rfl
@[simp] theorem finish_doneF (c : ResCode) (d : Word) (s : State) : (finish c d s).doneF = s.doneF := rfl
@[simp] theorem finish_busyF (c : ResCode) (d : Word) (s : State) : (finish c d s).busyF = s.busyF := rfl
@[simp] theorem finish_failF (c : ResCode) (d : Word) (s : State) : (finish c d s).failF = s.failF := rfl
@[simp] theorem finish_xfq (c : ResCode) (d : Word) (s : State) : (finish c d s).xfq = none := rfl
@[simp] theorem finish_rstl (c : ResCode) (d : Word) (s : State) : (finish c d s).rstl = s.rstl := rfl
@[simp] theorem finish_resValid (c : ResCode) (d : Word) (s : State) : (finish c d s).resValid = true := rfl
@[simp] theorem finish_resCode (c : ResCode) (d : Word) (s : State) : (finish c d s).resCode = c := rfl
@[simp] theorem finish_resDetail (c : ResCode) (d : Word) (s : State) : (finish c d s).resDetail = d := rfl
@[simp] theorem finish_loaded (c : ResCode) (d : Word) (s : State) : (finish c d s).loaded = s.loaded := rfl
@[simp] theorem finish_phase (c : ResCode) (d : Word) (s : State) : (finish c d s).phase = s.phase := rfl

/-! ### `xferIssue` -/

@[simp] theorem xferIssue_cfg (r : Request) (s : State) : (xferIssue r s).cfg = s.cfg := rfl
@[simp] theorem xferIssue_port (r : Request) (s : State) : (xferIssue r s).port = s.port := rfl
@[simp] theorem xferIssue_stim (r : Request) (s : State) : (xferIssue r s).stim = s.stim := rfl
@[simp] theorem xferIssue_upc (r : Request) (s : State) : (xferIssue r s).upc = s.upc := rfl
@[simp] theorem xferIssue_ph (r : Request) (s : State) : (xferIssue r s).ph = .wait := rfl
@[simp] theorem xferIssue_opr (r : Request) (s : State) : (xferIssue r s).opr = s.opr := rfl
@[simp] theorem xferIssue_att (r : Request) (s : State) : (xferIssue r s).att = s.att := rfl
@[simp] theorem xferIssue_len (r : Request) (s : State) : (xferIssue r s).len = s.len := rfl
@[simp] theorem xferIssue_tot (r : Request) (s : State) : (xferIssue r s).tot = s.tot := rfl
@[simp] theorem xferIssue_off (r : Request) (s : State) : (xferIssue r s).off = s.off := rfl
@[simp] theorem xferIssue_cl (r : Request) (s : State) : (xferIssue r s).cl = s.cl := rfl
@[simp] theorem xferIssue_dly (r : Request) (s : State) : (xferIssue r s).dly = s.dly := rfl
@[simp] theorem xferIssue_idr (r : Request) (s : State) : (xferIssue r s).idr = s.idr := rfl
@[simp] theorem xferIssue_sr (r : Request) (s : State) : (xferIssue r s).sr = s.sr := rfl
@[simp] theorem xferIssue_doneF (r : Request) (s : State) : (xferIssue r s).doneF = s.doneF := rfl
@[simp] theorem xferIssue_busyF (r : Request) (s : State) : (xferIssue r s).busyF = s.busyF := rfl
@[simp] theorem xferIssue_failF (r : Request) (s : State) : (xferIssue r s).failF = s.failF := rfl
@[simp] theorem xferIssue_xfq (r : Request) (s : State) : (xferIssue r s).xfq = some r := rfl
@[simp] theorem xferIssue_rstl (r : Request) (s : State) : (xferIssue r s).rstl = s.rstl := rfl
@[simp] theorem xferIssue_resValid (r : Request) (s : State) : (xferIssue r s).resValid = s.resValid := rfl
@[simp] theorem xferIssue_resCode (r : Request) (s : State) : (xferIssue r s).resCode = s.resCode := rfl
@[simp] theorem xferIssue_resDetail (r : Request) (s : State) : (xferIssue r s).resDetail = s.resDetail := rfl
@[simp] theorem xferIssue_loaded (r : Request) (s : State) : (xferIssue r s).loaded = s.loaded := rfl
@[simp] theorem xferIssue_phase (r : Request) (s : State) : (xferIssue r s).phase = s.phase := rfl

/-! ### `setStatus` -/

@[simp] theorem setStatus_cfg (w : Word) (s : State) : (setStatus w s).cfg = s.cfg := rfl
@[simp] theorem setStatus_port (w : Word) (s : State) : (setStatus w s).port = s.port := rfl
@[simp] theorem setStatus_stim (w : Word) (s : State) : (setStatus w s).stim = s.stim := rfl
@[simp] theorem setStatus_upc (w : Word) (s : State) : (setStatus w s).upc = s.upc := rfl
@[simp] theorem setStatus_ph (w : Word) (s : State) : (setStatus w s).ph = s.ph := rfl
@[simp] theorem setStatus_opr (w : Word) (s : State) : (setStatus w s).opr = s.opr := rfl
@[simp] theorem setStatus_att (w : Word) (s : State) : (setStatus w s).att = s.att := rfl
@[simp] theorem setStatus_len (w : Word) (s : State) : (setStatus w s).len = s.len := rfl
@[simp] theorem setStatus_tot (w : Word) (s : State) : (setStatus w s).tot = s.tot := rfl
@[simp] theorem setStatus_off (w : Word) (s : State) : (setStatus w s).off = s.off := rfl
@[simp] theorem setStatus_cl (w : Word) (s : State) : (setStatus w s).cl = s.cl := rfl
@[simp] theorem setStatus_dly (w : Word) (s : State) : (setStatus w s).dly = s.dly := rfl
@[simp] theorem setStatus_idr (w : Word) (s : State) : (setStatus w s).idr = s.idr := rfl
@[simp] theorem setStatus_sr (w : Word) (s : State) : (setStatus w s).sr = w := rfl
@[simp] theorem setStatus_doneF (w : Word) (s : State) : (setStatus w s).doneF = w.getLsbD s.cfg.doneBit.val := rfl
@[simp] theorem setStatus_busyF (w : Word) (s : State) : (setStatus w s).busyF = w.getLsbD s.cfg.busyBit.val := rfl
@[simp] theorem setStatus_failF (w : Word) (s : State) : (setStatus w s).failF = w.getLsbD s.cfg.failBit.val := rfl
@[simp] theorem setStatus_xfq (w : Word) (s : State) : (setStatus w s).xfq = s.xfq := rfl
@[simp] theorem setStatus_rstl (w : Word) (s : State) : (setStatus w s).rstl = s.rstl := rfl
@[simp] theorem setStatus_resValid (w : Word) (s : State) : (setStatus w s).resValid = s.resValid := rfl
@[simp] theorem setStatus_resCode (w : Word) (s : State) : (setStatus w s).resCode = s.resCode := rfl
@[simp] theorem setStatus_resDetail (w : Word) (s : State) : (setStatus w s).resDetail = s.resDetail := rfl
@[simp] theorem setStatus_loaded (w : Word) (s : State) : (setStatus w s).loaded = s.loaded := rfl
@[simp] theorem setStatus_phase (w : Word) (s : State) : (setStatus w s).phase = s.phase := rfl

/-! ### `line` -/

@[simp] theorem line_cfg (v : Bool) (s : State) : (line v s).cfg = s.cfg := rfl
@[simp] theorem line_port (v : Bool) (s : State) : (line v s).port = s.port := rfl
@[simp] theorem line_stim (v : Bool) (s : State) : (line v s).stim = s.stim := rfl
@[simp] theorem line_upc (v : Bool) (s : State) : (line v s).upc = s.upc.next := rfl
@[simp] theorem line_ph (v : Bool) (s : State) : (line v s).ph = .issue := rfl
@[simp] theorem line_opr (v : Bool) (s : State) : (line v s).opr = s.opr := rfl
@[simp] theorem line_att (v : Bool) (s : State) : (line v s).att = s.att := rfl
@[simp] theorem line_len (v : Bool) (s : State) : (line v s).len = s.len := rfl
@[simp] theorem line_tot (v : Bool) (s : State) : (line v s).tot = s.tot := rfl
@[simp] theorem line_off (v : Bool) (s : State) : (line v s).off = s.off := rfl
@[simp] theorem line_cl (v : Bool) (s : State) : (line v s).cl = s.cl := rfl
@[simp] theorem line_dly (v : Bool) (s : State) : (line v s).dly = s.dly := rfl
@[simp] theorem line_idr (v : Bool) (s : State) : (line v s).idr = s.idr := rfl
@[simp] theorem line_sr (v : Bool) (s : State) : (line v s).sr = s.sr := rfl
@[simp] theorem line_doneF (v : Bool) (s : State) : (line v s).doneF = s.doneF := rfl
@[simp] theorem line_busyF (v : Bool) (s : State) : (line v s).busyF = s.busyF := rfl
@[simp] theorem line_failF (v : Bool) (s : State) : (line v s).failF = s.failF := rfl
@[simp] theorem line_xfq (v : Bool) (s : State) : (line v s).xfq = s.xfq := rfl
@[simp] theorem line_rstl (v : Bool) (s : State) : (line v s).rstl = v := rfl
@[simp] theorem line_resValid (v : Bool) (s : State) : (line v s).resValid = s.resValid := rfl
@[simp] theorem line_resCode (v : Bool) (s : State) : (line v s).resCode = s.resCode := rfl
@[simp] theorem line_resDetail (v : Bool) (s : State) : (line v s).resDetail = s.resDetail := rfl
@[simp] theorem line_loaded (v : Bool) (s : State) : (line v s).loaded = s.loaded := rfl
@[simp] theorem line_phase (v : Bool) (s : State) : (line v s).phase = s.phase := rfl

/-! ### `burstIssue` -/

@[simp] theorem burstIssue_cfg (s : State) : (burstIssue s).cfg = s.cfg := rfl
@[simp] theorem burstIssue_port (s : State) : (burstIssue s).port = s.port := rfl
@[simp] theorem burstIssue_stim (s : State) : (burstIssue s).stim = s.stim := rfl
@[simp] theorem burstIssue_upc (s : State) : (burstIssue s).upc = s.upc := rfl
@[simp] theorem burstIssue_ph (s : State) : (burstIssue s).ph = .wait := rfl
@[simp] theorem burstIssue_opr (s : State) : (burstIssue s).opr = s.opr := rfl
@[simp] theorem burstIssue_att (s : State) : (burstIssue s).att = s.att := rfl
@[simp] theorem burstIssue_len (s : State) : (burstIssue s).len = s.len := rfl
@[simp] theorem burstIssue_tot (s : State) : (burstIssue s).tot = s.tot := rfl
@[simp] theorem burstIssue_off (s : State) : (burstIssue s).off = s.tot := rfl
@[simp] theorem burstIssue_cl (s : State) : (burstIssue s).cl = BitVec.ofNat 16 (chunkLen s.cfg.maxXfer.toNat s.tot (ceilDiv s.tot s.cfg.maxXfer.toNat - 1)) := rfl
@[simp] theorem burstIssue_dly (s : State) : (burstIssue s).dly = s.dly := rfl
@[simp] theorem burstIssue_idr (s : State) : (burstIssue s).idr = s.idr := rfl
@[simp] theorem burstIssue_sr (s : State) : (burstIssue s).sr = s.sr := rfl
@[simp] theorem burstIssue_doneF (s : State) : (burstIssue s).doneF = s.doneF := rfl
@[simp] theorem burstIssue_busyF (s : State) : (burstIssue s).busyF = s.busyF := rfl
@[simp] theorem burstIssue_failF (s : State) : (burstIssue s).failF = s.failF := rfl
@[simp] theorem burstIssue_xfq (s : State) : (burstIssue s).xfq = some (chunks (logicalByte s.cfg s.port.img) s.cfg.maxXfer.toNat s.tot) := rfl
@[simp] theorem burstIssue_rstl (s : State) : (burstIssue s).rstl = s.rstl := rfl
@[simp] theorem burstIssue_resValid (s : State) : (burstIssue s).resValid = s.resValid := rfl
@[simp] theorem burstIssue_resCode (s : State) : (burstIssue s).resCode = s.resCode := rfl
@[simp] theorem burstIssue_resDetail (s : State) : (burstIssue s).resDetail = s.resDetail := rfl
@[simp] theorem burstIssue_loaded (s : State) : (burstIssue s).loaded = s.loaded := rfl
@[simp] theorem burstIssue_phase (s : State) : (burstIssue s).phase = s.phase := rfl

/-! ### `hwReset` -/

@[simp] theorem hwReset_cfg (s : State) : (hwReset s).cfg = s.cfg := rfl
@[simp] theorem hwReset_port (s : State) : (hwReset s).port = s.port := rfl
@[simp] theorem hwReset_stim (s : State) : (hwReset s).stim = s.stim := rfl
@[simp] theorem hwReset_upc (s : State) : (hwReset s).upc = State.reset.upc := rfl
@[simp] theorem hwReset_ph (s : State) : (hwReset s).ph = State.reset.ph := rfl
@[simp] theorem hwReset_opr (s : State) : (hwReset s).opr = State.reset.opr := rfl
@[simp] theorem hwReset_att (s : State) : (hwReset s).att = State.reset.att := rfl
@[simp] theorem hwReset_len (s : State) : (hwReset s).len = State.reset.len := rfl
@[simp] theorem hwReset_tot (s : State) : (hwReset s).tot = State.reset.tot := rfl
@[simp] theorem hwReset_off (s : State) : (hwReset s).off = State.reset.off := rfl
@[simp] theorem hwReset_cl (s : State) : (hwReset s).cl = State.reset.cl := rfl
@[simp] theorem hwReset_dly (s : State) : (hwReset s).dly = State.reset.dly := rfl
@[simp] theorem hwReset_idr (s : State) : (hwReset s).idr = State.reset.idr := rfl
@[simp] theorem hwReset_sr (s : State) : (hwReset s).sr = State.reset.sr := rfl
@[simp] theorem hwReset_doneF (s : State) : (hwReset s).doneF = State.reset.doneF := rfl
@[simp] theorem hwReset_busyF (s : State) : (hwReset s).busyF = State.reset.busyF := rfl
@[simp] theorem hwReset_failF (s : State) : (hwReset s).failF = State.reset.failF := rfl
@[simp] theorem hwReset_xfq (s : State) : (hwReset s).xfq = State.reset.xfq := rfl
@[simp] theorem hwReset_rstl (s : State) : (hwReset s).rstl = State.reset.rstl := rfl
@[simp] theorem hwReset_resValid (s : State) : (hwReset s).resValid = State.reset.resValid := rfl
@[simp] theorem hwReset_resCode (s : State) : (hwReset s).resCode = State.reset.resCode := rfl
@[simp] theorem hwReset_resDetail (s : State) : (hwReset s).resDetail = State.reset.resDetail := rfl
@[simp] theorem hwReset_loaded (s : State) : (hwReset s).loaded = State.reset.loaded := rfl
@[simp] theorem hwReset_phase (s : State) : (hwReset s).phase = State.reset.phase := rfl

/-! ### `nextPort` -/

@[simp] theorem nextPort_cfg (s : State) : (nextPort s).cfg = s.cfg := by unfold nextPort; split <;> rfl
@[simp] theorem nextPort_upc (s : State) : (nextPort s).upc = s.upc := by unfold nextPort; split <;> rfl
@[simp] theorem nextPort_ph (s : State) : (nextPort s).ph = s.ph := by unfold nextPort; split <;> rfl
@[simp] theorem nextPort_opr (s : State) : (nextPort s).opr = s.opr := by unfold nextPort; split <;> rfl
@[simp] theorem nextPort_att (s : State) : (nextPort s).att = s.att := by unfold nextPort; split <;> rfl
@[simp] theorem nextPort_len (s : State) : (nextPort s).len = s.len := by unfold nextPort; split <;> rfl
@[simp] theorem nextPort_tot (s : State) : (nextPort s).tot = s.tot := by unfold nextPort; split <;> rfl
@[simp] theorem nextPort_off (s : State) : (nextPort s).off = s.off := by unfold nextPort; split <;> rfl
@[simp] theorem nextPort_cl (s : State) : (nextPort s).cl = s.cl := by unfold nextPort; split <;> rfl
@[simp] theorem nextPort_dly (s : State) : (nextPort s).dly = s.dly := by unfold nextPort; split <;> rfl
@[simp] theorem nextPort_idr (s : State) : (nextPort s).idr = s.idr := by unfold nextPort; split <;> rfl
@[simp] theorem nextPort_sr (s : State) : (nextPort s).sr = s.sr := by unfold nextPort; split <;> rfl
@[simp] theorem nextPort_doneF (s : State) : (nextPort s).doneF = s.doneF := by unfold nextPort; split <;> rfl
@[simp] theorem nextPort_busyF (s : State) : (nextPort s).busyF = s.busyF := by unfold nextPort; split <;> rfl
@[simp] theorem nextPort_failF (s : State) : (nextPort s).failF = s.failF := by unfold nextPort; split <;> rfl
@[simp] theorem nextPort_xfq (s : State) : (nextPort s).xfq = s.xfq := by unfold nextPort; split <;> rfl
@[simp] theorem nextPort_rstl (s : State) : (nextPort s).rstl = s.rstl := by unfold nextPort; split <;> rfl
@[simp] theorem nextPort_resValid (s : State) : (nextPort s).resValid = s.resValid := by unfold nextPort; split <;> rfl
@[simp] theorem nextPort_resCode (s : State) : (nextPort s).resCode = s.resCode := by unfold nextPort; split <;> rfl
@[simp] theorem nextPort_resDetail (s : State) : (nextPort s).resDetail = s.resDetail := by unfold nextPort; split <;> rfl
@[simp] theorem nextPort_loaded (s : State) : (nextPort s).loaded = s.loaded := by unfold nextPort; split <;> rfl
@[simp] theorem nextPort_phase (s : State) : (nextPort s).phase = s.phase := by unfold nextPort; split <;> rfl

/-! ### `abortLine` -/

@[simp] theorem abortLine_cfg (s : State) : (abortLine s).cfg = s.cfg := by unfold abortLine; split <;> rfl
@[simp] theorem abortLine_port (s : State) : (abortLine s).port = s.port := by unfold abortLine; split <;> rfl
@[simp] theorem abortLine_stim (s : State) : (abortLine s).stim = s.stim := by unfold abortLine; split <;> rfl
@[simp] theorem abortLine_upc (s : State) : (abortLine s).upc = s.upc := by unfold abortLine; split <;> rfl
@[simp] theorem abortLine_ph (s : State) : (abortLine s).ph = s.ph := by unfold abortLine; split <;> rfl
@[simp] theorem abortLine_opr (s : State) : (abortLine s).opr = s.opr := by unfold abortLine; split <;> rfl
@[simp] theorem abortLine_att (s : State) : (abortLine s).att = s.att := by unfold abortLine; split <;> rfl
@[simp] theorem abortLine_len (s : State) : (abortLine s).len = s.len := by unfold abortLine; split <;> rfl
@[simp] theorem abortLine_tot (s : State) : (abortLine s).tot = s.tot := by unfold abortLine; split <;> rfl
@[simp] theorem abortLine_off (s : State) : (abortLine s).off = s.off := by unfold abortLine; split <;> rfl
@[simp] theorem abortLine_cl (s : State) : (abortLine s).cl = s.cl := by unfold abortLine; split <;> rfl
@[simp] theorem abortLine_dly (s : State) : (abortLine s).dly = s.dly := by unfold abortLine; split <;> rfl
@[simp] theorem abortLine_idr (s : State) : (abortLine s).idr = s.idr := by unfold abortLine; split <;> rfl
@[simp] theorem abortLine_sr (s : State) : (abortLine s).sr = s.sr := by unfold abortLine; split <;> rfl
@[simp] theorem abortLine_doneF (s : State) : (abortLine s).doneF = s.doneF := by unfold abortLine; split <;> rfl
@[simp] theorem abortLine_busyF (s : State) : (abortLine s).busyF = s.busyF := by unfold abortLine; split <;> rfl
@[simp] theorem abortLine_failF (s : State) : (abortLine s).failF = s.failF := by unfold abortLine; split <;> rfl
@[simp] theorem abortLine_xfq (s : State) : (abortLine s).xfq = s.xfq := by unfold abortLine; split <;> rfl
@[simp] theorem abortLine_resValid (s : State) : (abortLine s).resValid = s.resValid := by unfold abortLine; split <;> rfl
@[simp] theorem abortLine_resCode (s : State) : (abortLine s).resCode = s.resCode := by unfold abortLine; split <;> rfl
@[simp] theorem abortLine_resDetail (s : State) : (abortLine s).resDetail = s.resDetail := by unfold abortLine; split <;> rfl
@[simp] theorem abortLine_loaded (s : State) : (abortLine s).loaded = s.loaded := by unfold abortLine; split <;> rfl
@[simp] theorem abortLine_phase (s : State) : (abortLine s).phase = s.phase := by unfold abortLine; split <;> rfl

/-! ### `retOk` -/

@[simp] theorem retOk_cfg (s : State) : (retOk s).cfg = s.cfg := by unfold retOk; split <;> rfl
@[simp] theorem retOk_port (s : State) : (retOk s).port = s.port := by unfold retOk; split <;> rfl
@[simp] theorem retOk_stim (s : State) : (retOk s).stim = s.stim := by unfold retOk; split <;> rfl
@[simp] theorem retOk_ph (s : State) : (retOk s).ph = .issue := by unfold retOk; split <;> rfl
@[simp] theorem retOk_opr (s : State) : (retOk s).opr = s.opr := by unfold retOk; split <;> rfl
@[simp] theorem retOk_att (s : State) : (retOk s).att = s.att := by unfold retOk; split <;> rfl
@[simp] theorem retOk_len (s : State) : (retOk s).len = s.len := by unfold retOk; split <;> rfl
@[simp] theorem retOk_tot (s : State) : (retOk s).tot = s.tot := by unfold retOk; split <;> rfl
@[simp] theorem retOk_off (s : State) : (retOk s).off = s.off := by unfold retOk; split <;> rfl
@[simp] theorem retOk_cl (s : State) : (retOk s).cl = s.cl := by unfold retOk; split <;> rfl
@[simp] theorem retOk_dly (s : State) : (retOk s).dly = s.dly := by unfold retOk; split <;> rfl
@[simp] theorem retOk_idr (s : State) : (retOk s).idr = s.idr := by unfold retOk; split <;> rfl
@[simp] theorem retOk_sr (s : State) : (retOk s).sr = s.sr := by unfold retOk; split <;> rfl
@[simp] theorem retOk_doneF (s : State) : (retOk s).doneF = s.doneF := by unfold retOk; split <;> rfl
@[simp] theorem retOk_busyF (s : State) : (retOk s).busyF = s.busyF := by unfold retOk; split <;> rfl
@[simp] theorem retOk_failF (s : State) : (retOk s).failF = s.failF := by unfold retOk; split <;> rfl
@[simp] theorem retOk_rstl (s : State) : (retOk s).rstl = s.rstl := by unfold retOk; split <;> rfl
@[simp] theorem retOk_loaded (s : State) : (retOk s).loaded = s.loaded := by unfold retOk; split <;> rfl
@[simp] theorem retOk_phase (s : State) : (retOk s).phase = s.phase := by unfold retOk; split <;> rfl

/-! ### `retryOrFinish` -/

@[simp] theorem retryOrFinish_cfg (e : ResCode) (d : Word) (s : State) : (retryOrFinish e d s).cfg = s.cfg := by unfold retryOrFinish; split <;> rfl
@[simp] theorem retryOrFinish_port (e : ResCode) (d : Word) (s : State) : (retryOrFinish e d s).port = s.port := by unfold retryOrFinish; split <;> rfl
@[simp] theorem retryOrFinish_stim (e : ResCode) (d : Word) (s : State) : (retryOrFinish e d s).stim = s.stim := by unfold retryOrFinish; split <;> rfl
@[simp] theorem retryOrFinish_ph (e : ResCode) (d : Word) (s : State) : (retryOrFinish e d s).ph = .issue := by unfold retryOrFinish; split <;> rfl
@[simp] theorem retryOrFinish_opr (e : ResCode) (d : Word) (s : State) : (retryOrFinish e d s).opr = s.opr := by unfold retryOrFinish; split <;> rfl
@[simp] theorem retryOrFinish_att (e : ResCode) (d : Word) (s : State) : (retryOrFinish e d s).att = s.att + 1 := by unfold retryOrFinish; split <;> rfl
@[simp] theorem retryOrFinish_len (e : ResCode) (d : Word) (s : State) : (retryOrFinish e d s).len = s.len := by unfold retryOrFinish; split <;> rfl
@[simp] theorem retryOrFinish_tot (e : ResCode) (d : Word) (s : State) : (retryOrFinish e d s).tot = s.tot := by unfold retryOrFinish; split <;> rfl
@[simp] theorem retryOrFinish_off (e : ResCode) (d : Word) (s : State) : (retryOrFinish e d s).off = s.off := by unfold retryOrFinish; split <;> rfl
@[simp] theorem retryOrFinish_cl (e : ResCode) (d : Word) (s : State) : (retryOrFinish e d s).cl = s.cl := by unfold retryOrFinish; split <;> rfl
@[simp] theorem retryOrFinish_dly (e : ResCode) (d : Word) (s : State) : (retryOrFinish e d s).dly = s.dly := by unfold retryOrFinish; split <;> rfl
@[simp] theorem retryOrFinish_idr (e : ResCode) (d : Word) (s : State) : (retryOrFinish e d s).idr = s.idr := by unfold retryOrFinish; split <;> rfl
@[simp] theorem retryOrFinish_sr (e : ResCode) (d : Word) (s : State) : (retryOrFinish e d s).sr = s.sr := by unfold retryOrFinish; split <;> rfl
@[simp] theorem retryOrFinish_doneF (e : ResCode) (d : Word) (s : State) : (retryOrFinish e d s).doneF = s.doneF := by unfold retryOrFinish; split <;> rfl
@[simp] theorem retryOrFinish_busyF (e : ResCode) (d : Word) (s : State) : (retryOrFinish e d s).busyF = s.busyF := by unfold retryOrFinish; split <;> rfl
@[simp] theorem retryOrFinish_failF (e : ResCode) (d : Word) (s : State) : (retryOrFinish e d s).failF = s.failF := by unfold retryOrFinish; split <;> rfl
@[simp] theorem retryOrFinish_rstl (e : ResCode) (d : Word) (s : State) : (retryOrFinish e d s).rstl = s.rstl := by unfold retryOrFinish; split <;> rfl
@[simp] theorem retryOrFinish_loaded (e : ResCode) (d : Word) (s : State) : (retryOrFinish e d s).loaded = s.loaded := by unfold retryOrFinish; split <;> rfl
@[simp] theorem retryOrFinish_phase (e : ResCode) (d : Word) (s : State) : (retryOrFinish e d s).phase = s.phase := by unfold retryOrFinish; split <;> rfl

/-! ### `raiseError` -/

@[simp] theorem raiseError_cfg (e : ResCode) (d : Word) (s : State) : (raiseError e d s).cfg = s.cfg := by unfold raiseError retryOrFinish; split <;> [split; skip] <;> rfl
@[simp] theorem raiseError_port (e : ResCode) (d : Word) (s : State) : (raiseError e d s).port = s.port := by unfold raiseError retryOrFinish; split <;> [split; skip] <;> rfl
@[simp] theorem raiseError_stim (e : ResCode) (d : Word) (s : State) : (raiseError e d s).stim = s.stim := by unfold raiseError retryOrFinish; split <;> [split; skip] <;> rfl
@[simp] theorem raiseError_ph (e : ResCode) (d : Word) (s : State) : (raiseError e d s).ph = .issue := by unfold raiseError retryOrFinish; split <;> [split; skip] <;> rfl
@[simp] theorem raiseError_opr (e : ResCode) (d : Word) (s : State) : (raiseError e d s).opr = s.opr := by unfold raiseError retryOrFinish; split <;> [split; skip] <;> rfl
@[simp] theorem raiseError_len (e : ResCode) (d : Word) (s : State) : (raiseError e d s).len = s.len := by unfold raiseError retryOrFinish; split <;> [split; skip] <;> rfl
@[simp] theorem raiseError_tot (e : ResCode) (d : Word) (s : State) : (raiseError e d s).tot = s.tot := by unfold raiseError retryOrFinish; split <;> [split; skip] <;> rfl
@[simp] theorem raiseError_off (e : ResCode) (d : Word) (s : State) : (raiseError e d s).off = s.off := by unfold raiseError retryOrFinish; split <;> [split; skip] <;> rfl
@[simp] theorem raiseError_cl (e : ResCode) (d : Word) (s : State) : (raiseError e d s).cl = s.cl := by unfold raiseError retryOrFinish; split <;> [split; skip] <;> rfl
@[simp] theorem raiseError_dly (e : ResCode) (d : Word) (s : State) : (raiseError e d s).dly = s.dly := by unfold raiseError retryOrFinish; split <;> [split; skip] <;> rfl
@[simp] theorem raiseError_idr (e : ResCode) (d : Word) (s : State) : (raiseError e d s).idr = s.idr := by unfold raiseError retryOrFinish; split <;> [split; skip] <;> rfl
@[simp] theorem raiseError_sr (e : ResCode) (d : Word) (s : State) : (raiseError e d s).sr = s.sr := by unfold raiseError retryOrFinish; split <;> [split; skip] <;> rfl
@[simp] theorem raiseError_doneF (e : ResCode) (d : Word) (s : State) : (raiseError e d s).doneF = s.doneF := by unfold raiseError retryOrFinish; split <;> [split; skip] <;> rfl
@[simp] theorem raiseError_busyF (e : ResCode) (d : Word) (s : State) : (raiseError e d s).busyF = s.busyF := by unfold raiseError retryOrFinish; split <;> [split; skip] <;> rfl
@[simp] theorem raiseError_failF (e : ResCode) (d : Word) (s : State) : (raiseError e d s).failF = s.failF := by unfold raiseError retryOrFinish; split <;> [split; skip] <;> rfl
@[simp] theorem raiseError_rstl (e : ResCode) (d : Word) (s : State) : (raiseError e d s).rstl = s.rstl := by unfold raiseError retryOrFinish; split <;> [split; skip] <;> rfl
@[simp] theorem raiseError_loaded (e : ResCode) (d : Word) (s : State) : (raiseError e d s).loaded = s.loaded := by unfold raiseError retryOrFinish; split <;> [split; skip] <;> rfl
@[simp] theorem raiseError_phase (e : ResCode) (d : Word) (s : State) : (raiseError e d s).phase = .failed := by unfold raiseError retryOrFinish; split <;> [split; skip] <;> rfl

theorem raiseError_xfq (e : ResCode) (d : Word) (s : State) : (raiseError e d s).xfq = none := by
  unfold raiseError retryOrFinish; split <;> [split; skip] <;> rfl

/-! ### `raiseTransport` -/

@[simp] theorem raiseTransport_cfg (code : Nat) (s : State) : (raiseTransport code s).cfg = s.cfg := by simp [raiseTransport]
@[simp] theorem raiseTransport_port (code : Nat) (s : State) : (raiseTransport code s).port = s.port := by simp [raiseTransport]
@[simp] theorem raiseTransport_stim (code : Nat) (s : State) : (raiseTransport code s).stim = s.stim := by simp [raiseTransport]
@[simp] theorem raiseTransport_ph (code : Nat) (s : State) : (raiseTransport code s).ph = .issue := by simp [raiseTransport]
@[simp] theorem raiseTransport_opr (code : Nat) (s : State) : (raiseTransport code s).opr = s.opr := by simp [raiseTransport]
@[simp] theorem raiseTransport_len (code : Nat) (s : State) : (raiseTransport code s).len = s.len := by simp [raiseTransport]
@[simp] theorem raiseTransport_tot (code : Nat) (s : State) : (raiseTransport code s).tot = s.tot := by simp [raiseTransport]
@[simp] theorem raiseTransport_off (code : Nat) (s : State) : (raiseTransport code s).off = s.off := by simp [raiseTransport]
@[simp] theorem raiseTransport_cl (code : Nat) (s : State) : (raiseTransport code s).cl = s.cl := by simp [raiseTransport]
@[simp] theorem raiseTransport_dly (code : Nat) (s : State) : (raiseTransport code s).dly = s.dly := by simp [raiseTransport]
@[simp] theorem raiseTransport_idr (code : Nat) (s : State) : (raiseTransport code s).idr = s.idr := by simp [raiseTransport]
@[simp] theorem raiseTransport_sr (code : Nat) (s : State) : (raiseTransport code s).sr = s.sr := by simp [raiseTransport]
@[simp] theorem raiseTransport_doneF (code : Nat) (s : State) : (raiseTransport code s).doneF = s.doneF := by simp [raiseTransport]
@[simp] theorem raiseTransport_busyF (code : Nat) (s : State) : (raiseTransport code s).busyF = s.busyF := by simp [raiseTransport]
@[simp] theorem raiseTransport_failF (code : Nat) (s : State) : (raiseTransport code s).failF = s.failF := by simp [raiseTransport]
@[simp] theorem raiseTransport_rstl (code : Nat) (s : State) : (raiseTransport code s).rstl = s.rstl := by simp [raiseTransport]
@[simp] theorem raiseTransport_loaded (code : Nat) (s : State) : (raiseTransport code s).loaded = s.loaded := by simp [raiseTransport]
@[simp] theorem raiseTransport_phase (code : Nat) (s : State) : (raiseTransport code s).phase = .failed := by simp [raiseTransport]

/-! ### `accept` -/

@[simp] theorem accept_cfg (op : BitVec 3) (u : Upc) (s : State) : (accept op u s).cfg = s.cfg := by unfold accept; split <;> rfl
@[simp] theorem accept_port (op : BitVec 3) (u : Upc) (s : State) : (accept op u s).port = s.port := by unfold accept; split <;> rfl
@[simp] theorem accept_stim (op : BitVec 3) (u : Upc) (s : State) : (accept op u s).stim = s.stim := by unfold accept; split <;> rfl
@[simp] theorem accept_len (op : BitVec 3) (u : Upc) (s : State) : (accept op u s).len = s.len := by unfold accept; split <;> rfl
@[simp] theorem accept_tot (op : BitVec 3) (u : Upc) (s : State) : (accept op u s).tot = s.tot := by unfold accept; split <;> rfl
@[simp] theorem accept_off (op : BitVec 3) (u : Upc) (s : State) : (accept op u s).off = s.off := by unfold accept; split <;> rfl
@[simp] theorem accept_cl (op : BitVec 3) (u : Upc) (s : State) : (accept op u s).cl = s.cl := by unfold accept; split <;> rfl
@[simp] theorem accept_dly (op : BitVec 3) (u : Upc) (s : State) : (accept op u s).dly = s.dly := by unfold accept; split <;> rfl
@[simp] theorem accept_idr (op : BitVec 3) (u : Upc) (s : State) : (accept op u s).idr = s.idr := by unfold accept; split <;> rfl
@[simp] theorem accept_sr (op : BitVec 3) (u : Upc) (s : State) : (accept op u s).sr = s.sr := by unfold accept; split <;> rfl
@[simp] theorem accept_doneF (op : BitVec 3) (u : Upc) (s : State) : (accept op u s).doneF = s.doneF := by unfold accept; split <;> rfl
@[simp] theorem accept_busyF (op : BitVec 3) (u : Upc) (s : State) : (accept op u s).busyF = s.busyF := by unfold accept; split <;> rfl
@[simp] theorem accept_failF (op : BitVec 3) (u : Upc) (s : State) : (accept op u s).failF = s.failF := by unfold accept; split <;> rfl
@[simp] theorem accept_xfq (op : BitVec 3) (u : Upc) (s : State) : (accept op u s).xfq = s.xfq := by unfold accept; split <;> rfl
@[simp] theorem accept_rstl (op : BitVec 3) (u : Upc) (s : State) : (accept op u s).rstl = s.rstl := by unfold accept; split <;> rfl
@[simp] theorem accept_resCode (op : BitVec 3) (u : Upc) (s : State) : (accept op u s).resCode = s.resCode := by unfold accept; split <;> rfl
@[simp] theorem accept_resDetail (op : BitVec 3) (u : Upc) (s : State) : (accept op u s).resDetail = s.resDetail := by unfold accept; split <;> rfl
@[simp] theorem accept_loaded (op : BitVec 3) (u : Upc) (s : State) : (accept op u s).loaded = s.loaded := by unfold accept; split <;> rfl
@[simp] theorem accept_phase (op : BitVec 3) (u : Upc) (s : State) : (accept op u s).phase = s.phase := by unfold accept; split <;> rfl

end Sys2Proof.Machine
end

