-- ==== Sys2Proof/Laws/Ops.lean ====
section
/-! SUPPORT. One lemma per shared operation: everything it can do. Later proofs cite these instead of unfolding. -/

namespace Sys2Proof.Machine

theorem advance_eq (p : Phase) (s : State) :
    advance p s = { s with phase := if s.phase = .failed then .failed else p } := rfl

theorem retOk_cases (s : State) :
    (s.opr = 6 ∧ s.upc = .rst6 ∧ retOk s = { s with upc := .ers0, ph := .issue }) ∨
    (¬ (s.opr = 6 ∧ s.upc = .rst6) ∧ retOk s = finish .ok 0 s) := by
  unfold retOk
  split
  · next h => exact .inl ⟨h.1, h.2, rfl⟩
  · next h => exact .inr ⟨h, rfl⟩

theorem retryOrFinish_cases (e : ResCode) (d : Word) (s : State) :
    (s.att + 1 < s.cfg.maxResetAttempts ∧
      retryOrFinish e d s = { s with upc := .rst0, ph := .issue, att := s.att + 1 }) ∨
    (s.cfg.maxResetAttempts ≤ s.att + 1 ∧ retryOrFinish e d s = finish e d { s with att := s.att + 1 }) := by
  unfold retryOrFinish
  split
  · next h => exact .inl ⟨h, rfl⟩
  · next h => exact .inr ⟨by omega, rfl⟩

theorem retries_iff (s : State) : retries s = true ↔ (s.opr = 5 ∨ s.opr = 6) ∧ s.upc.inRst = true := by
  simp [retries]

theorem raiseTransport_eq (code : Nat) (s : State) :
    raiseTransport code s = raiseError .transport (errDetail s.cfg code) s := rfl

/-- Taking an error ends the operation, or begins the next attempt of a wrapped reset. -/
theorem raiseError_cases (e : ResCode) (d : Word) (s : State) :
    (retries s = true ∧ s.att + 1 < s.cfg.maxResetAttempts ∧
      raiseError e d s =
        { s with phase := .failed, xfq := none, upc := .rst0, ph := .issue, att := s.att + 1 }) ∨
    (retries s = true ∧ s.cfg.maxResetAttempts ≤ s.att + 1 ∧
      raiseError e d s = finish e d { s with phase := .failed, att := s.att + 1 }) ∨
    (retries s = false ∧ raiseError e d s = finish e d { s with phase := .failed }) := by
  unfold raiseError
  split
  · next h =>
    rcases retryOrFinish_cases e d { s with phase := .failed, xfq := none } with ⟨ha, hr⟩ | ⟨ha, hr⟩
    · exact .inl ⟨h, ha, hr⟩
    · exact .inr (.inl ⟨h, ha, hr⟩)
  · next h => exact .inr (.inr ⟨by simpa using h, rfl⟩)

theorem abortLine_rstl (s : State) :
    (abortLine s).rstl = (if s.cfg.rstOnAbort = .release then false else s.rstl) := by
  unfold abortLine
  split <;> simp_all

theorem abortLine_eq (s : State) : abortLine s = { s with rstl := (abortLine s).rstl } := by
  unfold abortLine
  split <;> rfl

/-- The WAIT phase of a transport micro-operation waits, raises, or completes with the bytes read. -/
theorem xferDone_cases {want : Nat} {onOk : List Byte → State → State} {onErr : Nat → State → State}
    {s t : State} (h : xferDone want onOk onErr s = .next t) :
    (s.port.rsp = none ∧ t = s) ∨
    (∃ code, s.port.rsp = some (.err code) ∧ t = onErr code { s with xfq := none }) ∨
    (∃ bytes, s.port.rsp = some (.ok bytes) ∧ bytes.length = want ∧ t = onOk bytes { s with xfq := none }) := by
  unfold xferDone at h
  split at h
  · next hr => exact .inl ⟨hr, by simpa using h.symm⟩
  · next code hr => exact .inr (.inl ⟨code, hr, by simpa using h.symm⟩)
  · next bytes hr =>
    split at h
    · next hl => exact .inr (.inr ⟨bytes, hr, hl, by simpa using h.symm⟩)
    · cases h

theorem transact_cases {onIssue : State → State} {want : Nat} {onOk : List Byte → State → State}
    {onErr : Nat → State → State} {s t : State} (h : transact onIssue want onOk onErr s = .next t) :
    (s.ph = .issue ∧ t = onIssue s) ∨ (s.ph = .wait ∧ xferDone want onOk onErr s = .next t) := by
  unfold transact at h
  split at h
  · next hp => exact .inl ⟨hp, by simpa using h.symm⟩
  · next hp => exact .inr ⟨hp, h⟩

/-- A DELAY loads its counter, counts a tick, leaves at zero, or waits. -/
theorem delay_cases (n : Nat) (s : State) :
    (s.ph = .issue ∧ delay n s = { s with dly := n, ph := .wait }) ∨
    (s.ph = .wait ∧ s.dly = 0 ∧ delay n s = gotoNext s) ∨
    (s.ph = .wait ∧ s.dly ≠ 0 ∧ s.port.tick = true ∧ delay n s = { s with dly := s.dly - 1 }) ∨
    (s.ph = .wait ∧ s.dly ≠ 0 ∧ s.port.tick = false ∧ delay n s = s) := by
  unfold delay
  split
  · next hp => exact .inl ⟨hp, rfl⟩
  · next hp =>
    split
    · next h0 => exact .inr (.inl ⟨hp, h0, rfl⟩)
    · next h0 =>
      split
      · next ht => exact .inr (.inr (.inl ⟨hp, h0, ht, rfl⟩))
      · next ht => exact .inr (.inr (.inr ⟨hp, h0, by simpa using ht, rfl⟩))

theorem atIssue_cases (f : State → State) (s : State) :
    (s.ph = .issue ∧ atIssue f s = f s) ∨ (s.ph = .wait ∧ atIssue f s = s) := by
  unfold atIssue
  split
  · next h => exact .inl ⟨h, rfl⟩
  · next h => exact .inr ⟨h, rfl⟩

theorem accept_cases (op : BitVec 3) (u : Upc) (s : State) :
    (s.upc = .idle ∧ accept op u s = { s with opr := op, att := 0, resValid := false, upc := u, ph := .issue }) ∨
    (s.upc ≠ .idle ∧ accept op u s = s) := by
  unfold accept
  split
  · next h => exact .inl ⟨h, rfl⟩
  · next h => exact .inr ⟨h, rfl⟩

theorem atSender_cases (c : Cmd) (f : State → Host.Outcome State Fault Refusal) (s : State) :
    (s.upc.cmd? = some c ∧ atSender c f s = f s) ∨ (s.upc.cmd? ≠ some c ∧ atSender c f s = .next s) := by
  unfold atSender
  split
  · next h => exact .inl ⟨h, rfl⟩
  · next h => exact .inr ⟨h, rfl⟩

theorem afterStep_next {o : Host.Outcome State Fault Refusal} {t : State} (h : afterStep o = .next t) :
    ∃ u, o = .next u ∧ t = nextPort u := by
  cases o <;> simp_all [afterStep]

@[simp] theorem afterStep_of_next (u : State) : afterStep (.next u) = .next (nextPort u) := rfl

/-- What a step that answers a next state did before the inputs moved on. -/
theorem step_cases {s t : State} (h : step s = .next t) :
    (s.port.hwRst = true ∧ t = nextPort (hwReset s)) ∨
    (s.port.hwRst = false ∧ ∃ i u, fetched s = some i ∧ exec i s = .next u ∧ t = nextPort u) ∨
    (s.port.hwRst = false ∧ fetched s = none ∧ t = nextPort (micro s)) := by
  unfold step at h
  split at h
  · next hr => exact .inl ⟨hr, by simpa using h.symm⟩
  · next hr =>
    have hr : s.port.hwRst = false := by simpa using hr
    split at h
    · next i hi =>
      obtain ⟨u, hu, ht⟩ := afterStep_next h
      exact .inr (.inl ⟨hr, i, u, hi, hu, ht⟩)
    · next hi => exact .inr (.inr ⟨hr, hi, by simpa using h.symm⟩)

end Sys2Proof.Machine
end

