-- ==== Sys2Proof/Laws/PerInstr.lean ====
section
/-! SUPPORT. A fact about every instruction as syntax, one lemma per constructor: the length of its encoding. -/

namespace Sys2Proof.Laws

/-- In well-formed parameters a command frame is encoded in CMD_LEN bytes and a host operation in its code and the bytes
of `op_len` (30_encoding.md R91, R96). -/
def EncodeLength.Statement (i : Instr) : Prop :=
  ∀ c : Config, c.framesOk = true →
    (encode c i).length = match i.format with | .cmdframe => c.cmdLen.toNat | .hostop => 1 + c.lenBytes

theorem leBytes_length (k n : Nat) : (leBytes k n).length = k := by
  induction k generalizing n with
  | zero => rfl
  | succ k ih => simp [leBytes, ih]

theorem opBytes_length (c : Config) (op : BitVec 3) (n : Nat) : (opBytes c op n).length = 1 + c.lenBytes := by
  simp [opBytes, leBytes_length, Nat.add_comm]

theorem frame_length {c : Config} (h : c.framesOk = true) (k : Cmd) : (c.cmd.frame k).length = c.cmdLen.toNat := by
  simp only [Config.framesOk, Bool.and_eq_true, List.all_eq_true, beq_iff_eq] at h
  exact h.1 k (by cases k <;> decide)

theorem EncodeLength.queryState : EncodeLength.Statement .queryState := fun c _ => opBytes_length c _ _
theorem EncodeLength.reset : EncodeLength.Statement .reset := fun c _ => opBytes_length c _ _
theorem EncodeLength.prepareErase : EncodeLength.Statement .prepareErase := fun c _ => opBytes_length c _ _
theorem EncodeLength.upload (n : Nat) : EncodeLength.Statement (.upload n) := fun c _ => opBytes_length c _ _
theorem EncodeLength.finalize : EncodeLength.Statement .finalize := fun c _ => opBytes_length c _ _
theorem EncodeLength.resetRetry : EncodeLength.Statement .resetRetry := fun c _ => opBytes_length c _ _
theorem EncodeLength.writeInit : EncodeLength.Statement .writeInit := fun c _ => opBytes_length c _ _
theorem EncodeLength.reserved111 : EncodeLength.Statement .reserved111 := fun c _ => opBytes_length c _ _
theorem EncodeLength.activate : EncodeLength.Statement .activate := fun _ h => frame_length h .activate
theorem EncodeLength.iscEnable : EncodeLength.Statement .iscEnable := fun _ h => frame_length h .iscEnable
theorem EncodeLength.iscErase : EncodeLength.Statement .iscErase := fun _ h => frame_length h .iscErase
theorem EncodeLength.iscDisable : EncodeLength.Statement .iscDisable := fun _ h => frame_length h .iscDisable
theorem EncodeLength.readIdcode : EncodeLength.Statement .readIdcode := fun _ h => frame_length h .readIdcode
theorem EncodeLength.lscInit : EncodeLength.Statement .lscInit := fun _ h => frame_length h .lscInit
theorem EncodeLength.lscBitstreamBurst : EncodeLength.Statement .lscBitstreamBurst := fun _ h => frame_length h .lscBitstreamBurst
theorem EncodeLength.lscReadStatus : EncodeLength.Statement .lscReadStatus := fun _ h => frame_length h .lscReadStatus

end Sys2Proof.Laws
end

