-- ==== Sys2Proof/Laws/Step.lean ====
section
/-! SUPPORT. The step at each micro-program address, one lemma per row of 40_sequencer.md R131, and from them what a
step can do, once: `Move` lists it, `step_move` says that every step without `hw_rst` is one of its cases. -/

namespace Sys2Proof.Machine

theorem step_at_rst0 {s : State} (h : s.port.hwRst = false) (hu : s.upc = .rst0) :
    step s = .next (nextPort (atIssue microRst0 s)) := by
  simp [step, h, fetched, hu, Upc.cmd?, micro]

theorem step_at_rst2 {s : State} (h : s.port.hwRst = false) (hu : s.upc = .rst2) :
    step s = .next (nextPort (atIssue microRst2 s)) := by
  simp [step, h, fetched, hu, Upc.cmd?, micro]

theorem step_at_rst6 {s : State} (h : s.port.hwRst = false) (hu : s.upc = .rst6) :
    step s = .next (nextPort (atIssue microRst6 s)) := by
  simp [step, h, fetched, hu, Upc.cmd?, micro]

theorem step_at_ers4 {s : State} (h : s.port.hwRst = false) (hu : s.upc = .ers4) :
    step s = .next (nextPort (atIssue microErs4 s)) := by
  simp [step, h, fetched, hu, Upc.cmd?, micro]

theorem step_at_upl2 {s : State} (h : s.port.hwRst = false) (hu : s.upc = .upl2) :
    step s = .next (nextPort (atIssue microUpl2 s)) := by
  simp [step, h, fetched, hu, Upc.cmd?, micro]

theorem step_at_upl5 {s : State} (h : s.port.hwRst = false) (hu : s.upc = .upl5) :
    step s = .next (nextPort (atIssue microUpl5 s)) := by
  simp [step, h, fetched, hu, Upc.cmd?, micro]

theorem step_at_fin1 {s : State} (h : s.port.hwRst = false) (hu : s.upc = .fin1) :
    step s = .next (nextPort (atIssue microFin1 s)) := by
  simp [step, h, fetched, hu, Upc.cmd?, micro]

theorem step_at_qry0 {s : State} (h : s.port.hwRst = false) (hu : s.upc = .qry0) :
    step s = .next (nextPort (atIssue microQry0 s)) := by
  simp [step, h, fetched, hu, Upc.cmd?, micro]

theorem step_at_rst3 {s : State} (h : s.port.hwRst = false) (hu : s.upc = .rst3) :
    step s = .next (nextPort (delay s.cfg.tResetSettle s)) := by
  simp [step, h, fetched, hu, Upc.cmd?, micro]

theorem step_at_ers1 {s : State} (h : s.port.hwRst = false) (hu : s.upc = .ers1) :
    step s = .next (nextPort (delay s.cfg.tErasePre s)) := by
  simp [step, h, fetched, hu, Upc.cmd?, micro]

theorem step_at_ers3 {s : State} (h : s.port.hwRst = false) (hu : s.upc = .ers3) :
    step s = .next (nextPort (delay s.cfg.tEraseSettle s)) := by
  simp [step, h, fetched, hu, Upc.cmd?, micro]

theorem step_at_upl1 {s : State} (h : s.port.hwRst = false) (hu : s.upc = .upl1) :
    step s = .next (nextPort (delay s.cfg.tInitSettle s)) := by
  simp [step, h, fetched, hu, Upc.cmd?, micro]

theorem step_at_rst1 {s : State} (h : s.port.hwRst = false) (hu : s.upc = .rst1) :
    step s = afterStep (transact (fun s => xferIssue (writeReq s.cfg .activate) s) 0 (fun _ s => gotoNext s)
      (fun code s => raiseTransport code (abortLine s)) s) := by
  simp [step, h, fetched, hu, Upc.cmd?, Instr.ofCmd, exec, execActivate, atSender]

theorem step_at_rst4 {s : State} (h : s.port.hwRst = false) (hu : s.upc = .rst4) :
    step s = afterStep (send .iscEnable s) := by
  simp [step, h, fetched, hu, Upc.cmd?, Instr.ofCmd, exec, execIscEnable, atSender]

theorem step_at_ers0 {s : State} (h : s.port.hwRst = false) (hu : s.upc = .ers0) :
    step s = afterStep (send .iscEnable s) := by
  simp [step, h, fetched, hu, Upc.cmd?, Instr.ofCmd, exec, execIscEnable, atSender]

theorem step_at_ers2 {s : State} (h : s.port.hwRst = false) (hu : s.upc = .ers2) :
    step s = afterStep (send .iscErase s) := by
  simp [step, h, fetched, hu, Upc.cmd?, Instr.ofCmd, exec, execIscErase, atSender]

theorem step_at_fin0 {s : State} (h : s.port.hwRst = false) (hu : s.upc = .fin0) :
    step s = afterStep (send .iscDisable s) := by
  simp [step, h, fetched, hu, Upc.cmd?, Instr.ofCmd, exec, execIscDisable, atSender]

theorem step_at_upl0 {s : State} (h : s.port.hwRst = false) (hu : s.upc = .upl0) :
    step s = afterStep (transact (fun s => advance .streaming (xferIssue (writeReq s.cfg .lscInit) s)) 0
      (fun _ s => gotoNext s) raiseTransport s) := by
  simp [step, h, fetched, hu, Upc.cmd?, Instr.ofCmd, exec, execLscInit, atSender]

theorem step_at_upl3 {s : State} (h : s.port.hwRst = false) (hu : s.upc = .upl3) :
    step s = afterStep (burst s) := by
  simp [step, h, fetched, hu, Upc.cmd?, Instr.ofCmd, exec, execLscBitstreamBurst, atSender]

theorem step_at_rst5 {s : State} (h : s.port.hwRst = false) (hu : s.upc = .rst5) :
    step s = afterStep (sendRecv .readIdcode s.cfg.idReadLen (fun w s => { s with idr := w }) s) := by
  simp [step, h, fetched, hu, Upc.cmd?, Instr.ofCmd, exec, execReadIdcode, atSender]

theorem step_at_upl4 {s : State} (h : s.port.hwRst = false) (hu : s.upc = .upl4) :
    step s = afterStep (sendRecv .lscReadStatus s.cfg.statusReadLen setStatus s) := by
  simp [step, h, fetched, hu, Upc.cmd?, Instr.ofCmd, exec, execLscReadStatus, atSender]

theorem step_at_idle {s : State} (h : s.port.hwRst = false) (hu : s.upc = .idle) :
    step s =
      if s.port.opValid then afterStep (exec (decodeOp s.port.op (portLen s)) s) else .next (nextPort s) := by
  by_cases hv : s.port.opValid = true
  · simp [step, h, fetched, hu, hv]
  · simp [step, h, fetched, hu, hv, micro]

theorem step_hwRst {s : State} (h : s.port.hwRst = true) : step s = .next (nextPort (hwReset s)) := by
  simp [step, h]

/-- What the registers can become in one step without `hw_rst`, before the inputs move on. -/
inductive Move (s : State) : State → Prop
  /-- nothing is enabled -/
  | stay (h : enabled s = false) : Move s s
  /-- an operation is accepted -/
  | accepted (u : State) (hu : s.upc = .idle) (hv : s.port.opValid = true)
      (h : exec (decodeOp s.port.op (portLen s)) s = .next u) : Move s u
  /-- a SEND is issued -/
  | issued (c : Cmd) (hc : s.upc.cmd? = some c) (hp : s.ph = .issue)
      (hk : c = .activate ∨ c = .iscEnable ∨ c = .iscErase ∨ c = .iscDisable) :
      Move s (xferIssue (writeReq s.cfg c) s)
  /-- LSC_INIT is issued -/
  | initIssued (hu : s.upc = .upl0) (hp : s.ph = .issue) :
      Move s (advance .streaming (xferIssue (writeReq s.cfg .lscInit) s))
  /-- the identity read is issued -/
  | idIssued (hu : s.upc = .rst5) (hp : s.ph = .issue) :
      Move s (xferIssue (writeReadReq s.cfg .readIdcode s.cfg.idReadLen) s)
  /-- the status read is issued -/
  | statusIssued (hu : s.upc = .upl4) (hp : s.ph = .issue) :
      Move s (xferIssue (writeReadReq s.cfg .lscReadStatus s.cfg.statusReadLen) s)
  /-- the burst is issued -/
  | burstIssued (hu : s.upc = .upl3) (hp : s.ph = .issue) : Move s (burstIssue s)
  /-- the Transport answers with an error -/
  | failed (c : Cmd) (code : Nat) (hc : s.upc.cmd? = some c) (hp : s.ph = .wait)
      (hr : s.port.rsp = some (.err code)) :
      Move s (raiseTransport code
        { s with
          xfq := none
          rstl := if s.upc = .rst1 ∧ s.cfg.rstOnAbort = .release then false else s.rstl })
  /-- a write succeeds -/
  | wrote (c : Cmd) (hc : s.upc.cmd? = some c) (hp : s.ph = .wait) (hr : s.port.rsp = some (.ok []))
      (hk : c ≠ .readIdcode ∧ c ≠ .lscReadStatus) : Move s (gotoNext { s with xfq := none })
  /-- the identity read succeeds -/
  | idRead (b : List Byte) (hu : s.upc = .rst5) (hp : s.ph = .wait) (hr : s.port.rsp = some (.ok b))
      (hl : b.length = s.cfg.idReadLen.toNat) : Move s (gotoNext { s with xfq := none, idr := readWord .readIdcode b })
  /-- the status read succeeds -/
  | statusRead (b : List Byte) (hu : s.upc = .upl4) (hp : s.ph = .wait) (hr : s.port.rsp = some (.ok b))
      (hl : b.length = s.cfg.statusReadLen.toNat) : Move s (gotoNext (setStatus (readWord .lscReadStatus b) { s with xfq := none }))
  /-- a DELAY loads its counter -/
  | delayLoaded (n : Nat) (hn : s.upc.delay? s.cfg = some n) (hp : s.ph = .issue) :
      Move s { s with dly := n, ph := .wait }
  /-- a DELAY counts a tick -/
  | ticked (n : Nat) (hn : s.upc.delay? s.cfg = some n) (hp : s.ph = .wait) (h0 : s.dly ≠ 0)
      (ht : s.port.tick = true) : Move s { s with dly := s.dly - 1 }
  /-- a DELAY is left -/
  | delayDone (n : Nat) (hn : s.upc.delay? s.cfg = some n) (hp : s.ph = .wait) (h0 : s.dly = 0) :
      Move s (gotoNext s)
  /-- RST0 -/
  | lineUp (hu : s.upc = .rst0) (hp : s.ph = .issue) : Move s (microRst0 s)
  /-- RST2 -/
  | lineDown (hu : s.upc = .rst2) (hp : s.ph = .issue) : Move s (microRst2 s)
  /-- RST6 -/
  | idChecked (hu : s.upc = .rst6) (hp : s.ph = .issue) : Move s (microRst6 s)
  /-- ERS4 -/
  | eraseEnded (hu : s.upc = .ers4) (hp : s.ph = .issue) : Move s (microErs4 s)
  /-- UPL2 -/
  | drawn (hu : s.upc = .upl2) (hp : s.ph = .issue) : Move s (microUpl2 s)
  /-- UPL5 -/
  | doneChecked (hu : s.upc = .upl5) (hp : s.ph = .issue) : Move s (microUpl5 s)
  /-- FIN1 -/
  | finalEnded (hu : s.upc = .fin1) (hp : s.ph = .issue) : Move s (microFin1 s)
  /-- QRY0 -/
  | queried (hu : s.upc = .qry0) (hp : s.ph = .issue) : Move s (microQry0 s)

theorem delay_move {s : State} {n : Nat} (hn : s.upc.delay? s.cfg = some n) (hc : s.upc.cmd? = none) :
    Move s (delay n s) := by
  rcases delay_cases n s with ⟨hp, he⟩ | ⟨hp, h0, he⟩ | ⟨hp, h0, ht, he⟩ | ⟨hp, h0, ht, he⟩ <;> rw [he]
  · exact .delayLoaded n hn hp
  · exact .delayDone n hn hp h0
  · exact .ticked n hn hp h0 ht
  · exact .stay (by simpa [enabled, hn, hc, hp, ht] using h0)

theorem atIssue_move {s : State} {f : State → State} (hc : s.upc.cmd? = none) (hd : s.upc.delay? s.cfg = none)
    (hu : s.upc ≠ .idle) (hf : s.ph = .issue → Move s (f s)) : Move s (atIssue f s) := by
  rcases atIssue_cases f s with ⟨hp, he⟩ | ⟨hp, he⟩ <;> rw [he]
  · exact hf hp
  · exact .stay (by simp [enabled, hc, hd, hp, hu])

/-- The failure of a command other than ACTIVATE leaves the line alone. -/
theorem failed_move {s : State} {c : Cmd} {code : Nat} (hc : s.upc.cmd? = some c) (hu : s.upc ≠ .rst1)
    (hp : s.ph = .wait) (hr : s.port.rsp = some (.err code)) :
    Move s (raiseTransport code { s with xfq := none }) := by
  simpa [hu] using Move.failed c code hc hp hr

theorem transact_move {s u : State} {c : Cmd} {onIssue : State → State} {want : Nat}
    {onOk : List Byte → State → State} {onErr : Nat → State → State} (hc : s.upc.cmd? = some c)
    (h : transact onIssue want onOk onErr s = .next u) (hi : s.ph = .issue → Move s (onIssue s))
    (he : ∀ code, s.ph = .wait → s.port.rsp = some (.err code) → Move s (onErr code { s with xfq := none }))
    (ho : ∀ b, s.ph = .wait → s.port.rsp = some (.ok b) → b.length = want → Move s (onOk b { s with xfq := none })) :
    Move s u := by
  rcases transact_cases h with ⟨hp, rfl⟩ | ⟨hp, hx⟩
  · exact hi hp
  · rcases xferDone_cases hx with ⟨hr, rfl⟩ | ⟨code, hr, rfl⟩ | ⟨b, hr, hl, rfl⟩
    · exact .stay (by simp [enabled, hc, hp, hr])
    · exact he code hp hr
    · exact ho b hp hr hl

theorem send_move {s u : State} {c : Cmd} (hc : s.upc.cmd? = some c) (hu : s.upc ≠ .rst1)
    (hk : c = .activate ∨ c = .iscEnable ∨ c = .iscErase ∨ c = .iscDisable) (h : send c s = .next u) : Move s u :=
  transact_move hc h (fun hp => .issued c hc hp hk) (fun _ hp hr => failed_move hc hu hp hr)
    (fun b hp hr hl => by
      obtain rfl := List.length_eq_zero_iff.mp hl
      exact .wrote c hc hp hr (by rcases hk with rfl | rfl | rfl | rfl <;> decide))

/-- Every step without `hw_rst` that answers a next state is a `Move`, after which the inputs move on. -/
theorem step_move {s t : State} (h : step s = .next t) (hr : s.port.hwRst = false) :
    ∃ u, Move s u ∧ t = nextPort u := by
  have pure : ∀ u : State, step s = .next (nextPort u) → Move s u → ∃ u, Move s u ∧ t = nextPort u := by
    intro u hs hm
    rw [hs] at h
    exact ⟨u, hm, by simpa using h.symm⟩
  cases hu : s.upc
  case idle =>
    rw [step_at_idle hr hu] at h
    split at h
    · next hv =>
      obtain ⟨u, he, rfl⟩ := afterStep_next h
      exact ⟨u, .accepted u hu hv he, rfl⟩
    · next hv => exact ⟨s, .stay (by simp [enabled, hu, Upc.cmd?, Upc.delay?, hv]; cases s.ph <;> rfl), by simpa using h.symm⟩
  case rst0 => exact pure _ (step_at_rst0 hr hu) (atIssue_move (by simp [hu, Upc.cmd?]) (by simp [hu, Upc.delay?]) (by simp [hu]) (.lineUp hu))
  case rst2 => exact pure _ (step_at_rst2 hr hu) (atIssue_move (by simp [hu, Upc.cmd?]) (by simp [hu, Upc.delay?]) (by simp [hu]) (.lineDown hu))
  case rst6 => exact pure _ (step_at_rst6 hr hu) (atIssue_move (by simp [hu, Upc.cmd?]) (by simp [hu, Upc.delay?]) (by simp [hu]) (.idChecked hu))
  case ers4 => exact pure _ (step_at_ers4 hr hu) (atIssue_move (by simp [hu, Upc.cmd?]) (by simp [hu, Upc.delay?]) (by simp [hu]) (.eraseEnded hu))
  case upl2 => exact pure _ (step_at_upl2 hr hu) (atIssue_move (by simp [hu, Upc.cmd?]) (by simp [hu, Upc.delay?]) (by simp [hu]) (.drawn hu))
  case upl5 => exact pure _ (step_at_upl5 hr hu) (atIssue_move (by simp [hu, Upc.cmd?]) (by simp [hu, Upc.delay?]) (by simp [hu]) (.doneChecked hu))
  case fin1 => exact pure _ (step_at_fin1 hr hu) (atIssue_move (by simp [hu, Upc.cmd?]) (by simp [hu, Upc.delay?]) (by simp [hu]) (.finalEnded hu))
  case qry0 => exact pure _ (step_at_qry0 hr hu) (atIssue_move (by simp [hu, Upc.cmd?]) (by simp [hu, Upc.delay?]) (by simp [hu]) (.queried hu))
  case rst3 => exact pure _ (step_at_rst3 hr hu) (delay_move (by simp [hu, Upc.delay?]) (by simp [hu, Upc.cmd?]))
  case ers1 => exact pure _ (step_at_ers1 hr hu) (delay_move (by simp [hu, Upc.delay?]) (by simp [hu, Upc.cmd?]))
  case ers3 => exact pure _ (step_at_ers3 hr hu) (delay_move (by simp [hu, Upc.delay?]) (by simp [hu, Upc.cmd?]))
  case upl1 => exact pure _ (step_at_upl1 hr hu) (delay_move (by simp [hu, Upc.delay?]) (by simp [hu, Upc.cmd?]))
  case rst4 =>
    rw [step_at_rst4 hr hu] at h
    obtain ⟨u, he, rfl⟩ := afterStep_next h
    exact ⟨u, send_move (by simp [hu, Upc.cmd?]) (by simp [hu]) (by decide) he, rfl⟩
  case ers0 =>
    rw [step_at_ers0 hr hu] at h
    obtain ⟨u, he, rfl⟩ := afterStep_next h
    exact ⟨u, send_move (by simp [hu, Upc.cmd?]) (by simp [hu]) (by decide) he, rfl⟩
  case ers2 =>
    rw [step_at_ers2 hr hu] at h
    obtain ⟨u, he, rfl⟩ := afterStep_next h
    exact ⟨u, send_move (by simp [hu, Upc.cmd?]) (by simp [hu]) (by decide) he, rfl⟩
  case fin0 =>
    rw [step_at_fin0 hr hu] at h
    obtain ⟨u, he, rfl⟩ := afterStep_next h
    exact ⟨u, send_move (by simp [hu, Upc.cmd?]) (by simp [hu]) (by decide) he, rfl⟩
  case rst1 =>
    have hc : s.upc.cmd? = some .activate := by simp [hu, Upc.cmd?]
    rw [step_at_rst1 hr hu] at h
    obtain ⟨u, he, rfl⟩ := afterStep_next h
    refine ⟨u, transact_move hc he (fun hp => .issued _ hc hp (by decide)) (fun code hp hr => ?_) (fun b hp hr hl => ?_), rfl⟩
    · rw [abortLine_eq, abortLine_rstl]
      simpa [hu] using Move.failed _ code hc hp hr
    · obtain rfl := List.length_eq_zero_iff.mp hl
      exact .wrote _ hc hp hr (by decide)
  case upl0 =>
    have hc : s.upc.cmd? = some .lscInit := by simp [hu, Upc.cmd?]
    rw [step_at_upl0 hr hu] at h
    obtain ⟨u, he, rfl⟩ := afterStep_next h
    refine ⟨u, transact_move hc he (.initIssued hu) (fun _ hp hr => failed_move hc (by simp [hu]) hp hr)
      (fun b hp hr hl => ?_), rfl⟩
    obtain rfl := List.length_eq_zero_iff.mp hl
    exact .wrote _ hc hp hr (by decide)
  case upl3 =>
    have hc : s.upc.cmd? = some .lscBitstreamBurst := by simp [hu, Upc.cmd?]
    rw [step_at_upl3 hr hu] at h
    obtain ⟨u, he, rfl⟩ := afterStep_next h
    refine ⟨u, transact_move hc he (.burstIssued hu) (fun _ hp hr => failed_move hc (by simp [hu]) hp hr)
      (fun b hp hr hl => ?_), rfl⟩
    obtain rfl := List.length_eq_zero_iff.mp hl
    exact .wrote _ hc hp hr (by decide)
  case rst5 =>
    rw [step_at_rst5 hr hu] at h
    obtain ⟨u, he, rfl⟩ := afterStep_next h
    have hc : s.upc.cmd? = some .readIdcode := by simp [hu, Upc.cmd?]
    exact ⟨u, transact_move hc he (.idIssued hu) (fun _ hp hr => failed_move hc (by simp [hu]) hp hr)
      (fun b hp hr hl => .idRead b hu hp hr hl), rfl⟩
  case upl4 =>
    rw [step_at_upl4 hr hu] at h
    obtain ⟨u, he, rfl⟩ := afterStep_next h
    have hc : s.upc.cmd? = some .lscReadStatus := by simp [hu, Upc.cmd?]
    exact ⟨u, transact_move hc he (.statusIssued hu) (fun _ hp hr => failed_move hc (by simp [hu]) hp hr)
      (fun b hp hr hl => .statusRead b hu hp hr hl), rfl⟩

end Sys2Proof.Machine
end

