-- ==== Sys2Proof/Tests/Slice0.lean ====
section
/-! SUPPORT. The model's own tests, on a test vehicle whose OPEN parameters are chosen as 95_test_vectors.md section 0
does (CFG0 asks for concrete values): ill-formed parameters are refused, written-out words decode, one step of each
instruction, and for each statement with hypotheses a state that meets them. -/

namespace Sys2Proof.Machine.Tests

/-- The frames of the test vehicle: four bytes each, pairwise different, of no other meaning. -/
def rom : CmdRom where
  activate := [0xA4, 0xC6, 0xF4, 0x8A]
  iscEnable := [0xC6, 0x00, 0x00, 0x01]
  iscErase := [0x0E, 0x00, 0x00, 0x02]
  iscDisable := [0x26, 0x00, 0x00, 0x03]
  readIdcode := [0xE0, 0x00, 0x00, 0x04]
  lscInit := [0x46, 0x00, 0x00, 0x05]
  lscBitstreamBurst := [0x7A, 0x01, 0x02, 0x06]
  lscReadStatus := [0x3C, 0x00, 0x00, 0x07]

/-- The parameters of the test vehicle. -/
def cfg0 : Config where
  expectedIdcode := 0x43002C01
  idReadLen := 4
  statusReadLen := 4
  prefixLen := 4
  cmdLen := 4
  cmd := rom
  doneBit := 8
  busyBit := 12
  failBit := 13
  tResetSettle := 10
  tErasePre := 3
  tEraseSettle := 50
  tInitSettle := 100
  timeUnit := 1
  maxResetAttempts := 2
  maxXfer := 65535
  lenW := 32
  errW := 32
  dlyW := 8
  stateOperating := 1
  rstPolarity := true
  rstOnAbort := .release
  sentinel := 0xFF

/-- A state of the test vehicle at an address and phase, the rest as after reset. -/
def at_ (u : Upc) (p : Ph) : State :=
  { State.reset with cfg := cfg0, upc := u, ph := p }

/-- The same with a response on the port. -/
def rspAt (u : Upc) (r : Rsp) : State :=
  { at_ u .wait with port := { Ports.atReset with rsp := some r }, xfq := some (writeReq cfg0 .activate) }

/-- The image of a byte list. -/
def img (bs : List Byte) : Memory :=
  Memory.load [] 0 bs

/-- The state a step or an instruction goes on with. -/
def after (o : Host.Outcome State Fault Refusal) : Option State :=
  match o with
  | .next t => some t
  | .fault _ => none
  | .refused _ => none

/-- Where control stands after it. -/
def ctl (o : Host.Outcome State Fault Refusal) : Option (Upc × Ph) :=
  (after o).map (fun t => (t.upc, t.ph))

/-- The mailbox after it. -/
def res (o : Host.Outcome State Fault Refusal) : Option (Bool × ResCode × Word) :=
  (after o).map (fun t => (t.resValid, t.resCode, t.resDetail))

/-! ### WellFormed -/

theorem test_wf_cfg0 : cfg0.wf = true ∧ cfg0.maxXferWhole = true := by decide

/-- R7 (a): two flags at one bit. -/
theorem test_wf_refuses_equal_bits :
    ({ cfg0 with busyBit := 8 }).statusBitsOk = false ∧ ({ cfg0 with failBit := 8 }).wf = false ∧
    ({ cfg0 with failBit := 12 }).wf = false := by decide

/-- R7 (b): MAX_XFER 0. -/
theorem test_wf_refuses_zero_transfer :
    ({ cfg0 with maxXfer := 0 }).maxXferOk = false ∧ ({ cfg0 with maxXfer := 0 }).wf = false := by decide

/-- R69: MAX_XFER 3 admits the chunk function and no whole configuration. -/
theorem test_wf_refuses_short_transfer :
    ({ cfg0 with maxXfer := 3 }).wf = true ∧ ({ cfg0 with maxXfer := 3 }).maxXferWhole = false := by decide

/-- R7 (c): no attempt. -/
theorem test_wf_refuses_no_attempt :
    ({ cfg0 with maxResetAttempts := 0 }).attemptsOk = false ∧ ({ cfg0 with maxResetAttempts := 0 }).wf = false := by
  decide

/-- R194: the short delay is at least 1 and below the erase settle time. -/
theorem test_wf_refuses_erase_pre :
    ({ cfg0 with tErasePre := 0 }).erasePreOk = false ∧ ({ cfg0 with tErasePre := 50 }).erasePreOk = false ∧
    ({ cfg0 with tErasePre := 50 }).wf = false ∧ ({ cfg0 with tErasePre := 49 }).wf = true := by decide

/-- R7 (d): a delay that DLY_W bits do not hold. -/
theorem test_wf_refuses_long_delay :
    ({ cfg0 with tInitSettle := 256 }).delaysOk = false ∧ ({ cfg0 with tInitSettle := 256 }).wf = false ∧
    ({ cfg0 with dlyW := 6 }).delaysOk = false ∧ ({ cfg0 with tInitSettle := 255 }).wf = true := by decide

/-- A frame of another length than CMD_LEN, a prefix of another length than PREFIX_LEN. -/
theorem test_wf_refuses_frame_length :
    ({ cfg0 with cmd := { rom with iscErase := [0x0E] } }).framesOk = false ∧
    ({ cfg0 with prefixLen := 3 }).framesOk = false ∧ ({ cfg0 with prefixLen := 3 }).wf = false := by decide

/-- An empty read. -/
theorem test_wf_refuses_empty_read :
    ({ cfg0 with idReadLen := 0 }).lengthsOk = false ∧ ({ cfg0 with statusReadLen := 0 }).wf = false := by decide

/-- An error code wider than RES_DETAIL, a prefix longer than the spare bit of TOT allows. -/
theorem test_wf_refuses_widths :
    ({ cfg0 with errW := 33 }).widthsOk = false ∧ ({ cfg0 with lenW := 1 }).widthsOk = false ∧
    ({ cfg0 with errW := 33 }).wf = false := by decide

/-- The greatest `op_len` of LEN_W bits, and one above it. -/
theorem test_wf_upload :
    (Instr.upload 0xFFFFFFFF).wf cfg0 = true ∧ (Instr.upload 0x100000000).wf cfg0 = false := by decide

/-- The canonical form refuses a 00 entry, an address out of order, a repeated one, and one outside the space. -/
theorem test_wf_memory :
    Memory.wf (img [1, 0, 2]) = true ∧ Memory.wf [(0, 0)] = false ∧ Memory.wf [(1, 5), (0, 5)] = false ∧
    Memory.wf [(1, 5), (1, 6)] = false ∧ Memory.inSpace cfg0 [(4294967295, 1)] = true ∧
    Memory.inSpace cfg0 [(4294967296, 1)] = false := by decide

/-! ### Decode: words written out from 30_encoding.md R91 and R96 -/

/-- Format HOSTOP, every code, the operand bytes 0 (R91). -/
theorem test_decode_hostop :
    decode cfg0 .hostop [0b000, 0, 0, 0, 0] = .ok .queryState ∧ decode cfg0 .hostop [0b001, 0, 0, 0, 0] = .ok .reset ∧
    decode cfg0 .hostop [0b010, 0, 0, 0, 0] = .ok .prepareErase ∧ decode cfg0 .hostop [0b011, 0, 0, 0, 0] = .ok (.upload 0) ∧
    decode cfg0 .hostop [0b100, 0, 0, 0, 0] = .ok .finalize ∧ decode cfg0 .hostop [0b101, 0, 0, 0, 0] = .ok .resetRetry ∧
    decode cfg0 .hostop [0b110, 0, 0, 0, 0] = .ok .writeInit ∧ decode cfg0 .hostop [0b111, 0, 0, 0, 0] = .ok .reserved111 := by decide

/-- The operands of programs P1 and P3: `op_len` 0x400 and 0x28; other operations ignore it (R93). -/
theorem test_decode_op_len :
    decode cfg0 .hostop [3, 0x00, 0x04, 0x00, 0x00] = .ok (.upload 0x400) ∧ decode cfg0 .hostop [3, 0x28, 0, 0, 0] = .ok (.upload 0x28) ∧
    decode cfg0 .hostop [1, 0x28, 0, 0, 0] = .ok .reset := by decide

/-- Format CMDFRAME, every command of the test vehicle's CMDROM (R95, R96). -/
theorem test_decode_frames :
    decode cfg0 .cmdframe [0xA4, 0xC6, 0xF4, 0x8A] = .ok .activate ∧ decode cfg0 .cmdframe [0xC6, 0, 0, 1] = .ok .iscEnable ∧
    decode cfg0 .cmdframe [0x0E, 0, 0, 2] = .ok .iscErase ∧ decode cfg0 .cmdframe [0x26, 0, 0, 3] = .ok .iscDisable ∧
    decode cfg0 .cmdframe [0xE0, 0, 0, 4] = .ok .readIdcode ∧ decode cfg0 .cmdframe [0x46, 0, 0, 5] = .ok .lscInit ∧
    decode cfg0 .cmdframe [0x7A, 1, 2, 6] = .ok .lscBitstreamBurst ∧ decode cfg0 .cmdframe [0x3C, 0, 0, 7] = .ok .lscReadStatus := by decide

/-- What is refused, by name. -/
theorem test_decode_refuses :
    decode cfg0 .hostop [8, 0, 0, 0, 0] = .error (.opHighBits 8) ∧ 
    decode cfg0 .cmdframe [1, 2, 3, 4] = .error (.unknownFrame [1, 2, 3, 4]) ∧
    decode cfg0 .hostop [] = .error (.length 0) ∧ decode cfg0 .hostop [1, 2, 3] = .error (.length 3) ∧
    decode { cfg0 with lenW := 30 } .hostop [3, 0, 0, 0, 0x40] = .error (.opLenHighBits 0x40000000) := by decide

/-- The words of the opcode table; byte 0 of a frame is leftmost (R116). -/
theorem test_table_words :
    decodeTableWord 8 1 = some .reset ∧ decodeTableWord 8 7 = some .reserved111 ∧ decodeTableWord 8 9 = none ∧
    tableBytes cfg0 32 0xA4C6F48A = [0xA4, 0xC6, 0xF4, 0x8A] := by decide

/-- The `le32` vectors of 95_test_vectors.md. -/
theorem test_le32 :
    le32 [0x01, 0x2C, 0x00, 0x43] = 0x43002C01 ∧ le32 [0x43, 0x00, 0x2C, 0x01] = 0x012C0043 ∧
    le32 [0x78, 0x56, 0x34, 0x12] = 0x12345678 ∧ le32 [0, 0, 0, 0x80] = 0x80000000 ∧ le32 [0xFF, 0, 0, 0] = 0x000000FF ∧
    readWord .readIdcode [0x01, 0x2C, 0x00, 0x43] = 0x43002C01 := by
  decide

/-! ### One step of each host operation -/

theorem test_query_state : ctl (exec .queryState (at_ .idle .issue)) = some (.qry0, .issue) := by decide

/-- VQ1. -/
theorem test_query_state_result : res (step (at_ .qry0 .issue)) = some (true, .ok, 1) := by decide

theorem test_reset : ctl (exec .reset (at_ .idle .issue)) = some (.rst0, .issue) := by decide

/-- RST0 (R172). -/
theorem test_reset_line :
    (after (step { at_ .rst0 .issue with loaded := true, phase := .failed })).map
      (fun t => (t.upc, t.rstl, t.loaded, t.phase)) = some (.rst1, true, false, .resetPending) := by decide

theorem test_prepare_erase : ctl (exec .prepareErase (at_ .idle .issue)) = some (.ers0, .issue) := by decide

/-- UPLOAD of the longest image: TOT does not wrap (R216). -/
theorem test_upload :
    (after (exec (.upload 0xFFFFFFFF) (at_ .idle .issue))).map (fun t => (t.upc, t.len, t.tot, t.opr)) =
      some (.upl0, 0xFFFFFFFF, 0x100000003, 3) := by decide

/-- VU8: every bit of the status word but DONE. -/
theorem test_upload_incomplete :
    res (step { at_ .upl5 .issue with sr := 0xFFFFFEFF, busyF := true, failF := true, opr := 3 }) =
      some (true, .uploadIncomplete, 0xFFFFFEFF) := by decide

theorem test_finalize : ctl (exec .finalize (at_ .idle .issue)) = some (.fin0, .issue) := by decide

/-- VF3: LOADED is set although PHASE stays FAILED. -/
theorem test_finalize_end :
    (after (step { at_ .fin1 .issue with phase := .failed, opr := 4 })).map (fun t => (t.loaded, t.phase, t.resCode)) =
      some (true, .failed, .ok) := by decide

theorem test_reset_retry :
    (after (exec .resetRetry { at_ .idle .issue with att := 2, resValid := true })).map
      (fun t => (t.upc, t.att, t.opr, t.resValid)) = some (.rst0, 0, 5, false) := by decide

/-- VT1: the first mismatch is retried. -/
theorem test_reset_retry_again :
    (after (step { at_ .rst6 .issue with opr := 5, idr := 0xFFFFFFFF })).map (fun t => (t.upc, t.att, t.resValid)) =
      some (.rst0, 1, false) := by decide

theorem test_write_init : ctl (exec .writeInit (at_ .idle .issue)) = some (.rst0, .issue) := by decide

/-- After a match WRITE_INIT goes on to the erase (R147). -/
theorem test_write_init_erase :
    ctl (step { at_ .rst6 .issue with opr := 6, idr := 0x43002C01 }) = some (.ers0, .issue) := by decide

/-- RESERVED_111 leaves PHASE and LOADED (R134). -/
theorem test_reserved :
    (after (exec .reserved111 { at_ .idle .issue with phase := .complete, loaded := true })).map
      (fun t => (t.upc, t.resValid, t.resCode, t.resDetail, t.phase, t.loaded)) =
      some (.idle, true, .illegalOp, 7, .complete, true) := by decide

/-! ### One step of each command -/

theorem test_activate_issue :
    (after (step (at_ .rst1 .issue))).map (fun t => (t.ph, t.xfq)) =
      some (.wait, some [⟨false, false, 4, [0xA4, 0xC6, 0xF4, 0x8A]⟩]) := by decide

/-- VT3: the line is released when ACTIVATE fails, and the attempt is counted. -/
theorem test_activate_fails :
    (after (step { rspAt .rst1 (.err 5) with rstl := true, opr := 5 })).map
      (fun t => (t.upc, t.rstl, t.att, t.xfq)) = some (.rst0, false, 1, none) := by decide

theorem test_isc_enable : ctl (step (rspAt .rst4 (.ok []))) = some (.rst5, .issue) := by decide

theorem test_isc_enable_erase : ctl (step (rspAt .ers0 (.ok []))) = some (.ers1, .issue) := by decide

/-- VE3. -/
theorem test_isc_erase_fails : res (step { rspAt .ers2 (.err 0x11) with opr := 2 }) = some (true, .transport, 0x11) := by
  decide

/-- VT7: a failure in the erase part of WRITE_INIT is not retried. -/
theorem test_isc_erase_not_retried :
    (after (step { rspAt .ers2 (.err 9) with opr := 6 })).map (fun t => (t.upc, t.att, t.resDetail)) =
      some (.idle, 0, 9) := by decide

theorem test_isc_disable : ctl (step (rspAt .fin0 (.ok []))) = some (.fin1, .issue) := by decide

theorem test_read_idcode :
    (after (step (rspAt .rst5 (.ok [0x01, 0x2C, 0x00, 0x43])))).map (fun t => (t.upc, t.idr)) =
      some (.rst6, 0x43002C01) := by decide

/-- A response of the wrong length (20_memory.md R68). -/
theorem test_read_idcode_short :
    (match step (rspAt .rst5 (.ok [1, 2, 3])) with | .fault f => some f | _ => none) = some (.responseLength 4 3) := by
  decide

theorem test_lsc_init :
    (after (step { at_ .upl0 .issue with phase := .erased })).map (fun t => (t.ph, t.phase)) =
      some (.wait, .streaming) := by decide

/-- VC5: MAX_XFER 4, five image bytes. -/
theorem test_lsc_bitstream_burst :
    (after (step { at_ .upl3 .issue with
      cfg := { cfg0 with maxXfer := 4 }, tot := 9
      port := { Ports.atReset with img := img [0xA0, 0xA1, 0xA2, 0xA3, 0xA4] } })).map (fun t => (t.ph, t.xfq)) =
      some (.wait, some [⟨false, false, 4, [0x7A, 1, 2, 6]⟩, ⟨false, true, 4, [0xA0, 0xA1, 0xA2, 0xA3]⟩,
        ⟨false, true, 1, [0xA4]⟩]) := by decide

/-- VU1's status: DONE alone. -/
theorem test_lsc_read_status :
    (after (step (rspAt .upl4 (.ok [0x00, 0x01, 0x00, 0x00])))).map
      (fun t => (t.upc, t.sr, t.doneF, t.busyF, t.failF)) = some (.upl5, 0x100, true, false, false) := by decide

/-! ### The chunker, messages and delays -/

/-- VC1 to VC4, VC6, VC7 as headers (95_test_vectors.md section 2.5). -/
theorem test_chunk_headers :
    (chunks (logicalByte cfg0 []) 65535 4).map Msg.header = [0x00004] ∧ (chunks (logicalByte cfg0 []) 16 16).map Msg.header = [0x00010] ∧
    (chunks (logicalByte cfg0 []) 16 17).map Msg.header = [0x00010, 0x10001] ∧
    (chunks (logicalByte cfg0 []) 16 32).map Msg.header = [0x00010, 0x10010] ∧
    (chunks (logicalByte cfg0 []) 3 4).map (fun d => d.data) = [[0x7A, 1, 2], [6]] ∧
    (chunks (logicalByte cfg0 []) 1 4).map Msg.header = [0x00001, 0x10001, 0x10001, 0x10001] := by decide

/-- VC8 and VC9: the numbers of messages and their lengths. -/
theorem test_chunk_lengths :
    ceilDiv 65536 65535 = 2 ∧ chunkLen 65535 65536 0 = 65535 ∧ chunkLen 65535 65536 1 = 1 ∧
    ceilDiv 131071 65535 = 3 ∧ chunkLen 65535 131071 1 = 65535 ∧ chunkLen 65535 131071 2 = 1 ∧
    ceilDiv 131070 65535 = 2 := by decide

/-- VC3, register by register. -/
theorem test_chunk_loop :
    ((chunkLoop (logicalByte cfg0 []) 16 17 1 (chunkStart 0)).off, (chunkLoop (logicalByte cfg0 []) 16 17 1 (chunkStart 0)).cl) = (16, 16) ∧
    ((chunkLoop (logicalByte cfg0 []) 16 17 2 (chunkStart 0)).off, (chunkLoop (logicalByte cfg0 []) 16 17 2 (chunkStart 0)).cl) = (17, 1) ∧
    (chunkLoop (logicalByte cfg0 []) 16 17 3 (chunkStart 0)).out = chunks (logicalByte cfg0 []) 16 17 := by decide

theorem test_read_header : (readMsg 4).header = 0x20004 := by decide

/-- DLY = 1 and a tick: the counter reaches 0 and control stays; the exit is the next step (R139). -/
theorem test_delay_tick :
    (after (step { at_ .rst3 .wait with dly := 1, port := { Ports.atReset with tick := true } })).map
      (fun t => (t.upc, t.ph, t.dly)) = some (.rst3, .wait, 0) ∧
    ctl (step (at_ .rst3 .wait)) = some (.rst4, .issue) := by decide

/-- VE5: a delay shows in the trace when it is left, not while it drains. -/
theorem test_delay_trace :
    (let s := { at_ .ers3 .wait with dly := 30 }
     (after (step s)).map (events s) = some []) ∧
    (let s := at_ .ers3 .wait
     (after (step s)).map (events s) = some [.delay 50]) := by decide

/-- VH2: `hw_rst` during a transaction. -/
theorem test_hw_rst :
    (after (step { rspAt .rst1 (.ok []) with
      rstl := true, port := { Ports.atReset with hwRst := true, opValid := true } })).map
      (fun t => (t.upc, t.ph, t.xfq, t.rstl)) = some (.idle, .issue, none, false) := by decide

/-! ### The host's two questions, on the first operation after reset -/

theorem test_first_reset : ctl (step (State.reset.withFetchWord 8 1)) = some (.rst0, .issue) := by decide

theorem test_first_reserved : res (step (State.reset.withFetchWord 8 7)) = some (true, .illegalOp, 7) := by decide

/-- A command frame is placed at the micro-operation that sends it, on the test vehicle. -/
theorem test_first_frame :
    (after (step ((at_ .idle .issue).withFetchWord 32 0xA4C6F48A))).map (fun t => (t.upc, t.ph, t.xfq)) =
      some (.rst1, .wait, some (writeReq cfg0 .activate)) := by decide

/-! ### Witnesses: for each statement with hypotheses, a state and operands that meet them -/

theorem witness_DecodeEncodeAgree : cfg0.cmd.distinct = true ∧ (Instr.upload 0xFFFFFFFF).wf cfg0 = true := by decide

theorem witness_DecodeEncodeSameBytes :
    let c := { cfg0 with cmd := { rom with iscErase := [0xC6, 0, 0, 1] } }
    c.cmd.distinct = false ∧ Instr.iscErase.wf c = true ∧ (Instr.upload 0xFFFFFFFF).wf c = true := by decide

/-- The last is an operation whose `op_len` is ignored: its bytes are not its encoding. -/
theorem witness_DecodedBytesCarryCodeOrFrame :
    decode cfg0 .cmdframe [0x0E, 0, 0, 2] = .ok .iscErase ∧
    decode cfg0 .hostop [3, 0xFF, 0xFF, 0xFF, 0xFF] = .ok (.upload 0xFFFFFFFF) ∧
    decode cfg0 .hostop [1, 0x28, 0, 0, 0] = .ok .reset ∧ encode cfg0 .reset = [1, 0, 0, 0, 0] := by decide

theorem witness_MessageHeaderLayout : cfg0.cmdLen = 4 := by decide

theorem witness_ImageReadsAsLoaded : 2 < ([7, 0, 9] : List Byte).length := by decide

theorem witness_InstructionsWriteNoMemory : (after (exec .lscInit (at_ .upl0 .issue))).isSome = true := by decide

theorem witness_StepRunsTheDecodedInstruction_op :
    let s := { at_ .idle .issue with port := { Ports.atReset with opValid := true, op := 3, opLen := 5 } }
    s.port.hwRst = false ∧ fetchBytes s = some [3, 5, 0, 0, 0] ∧ decode s.cfg (fetchFormat s) [3, 5, 0, 0, 0] = .ok (.upload 5) ∧
      s.upc = .idle ∧ (after (exec (.upload 5) s)).isSome = true := by decide

theorem witness_StepRunsTheDecodedInstruction_frame :
    let s := at_ .upl4 .wait
    s.port.hwRst = false ∧ fetchBytes s = some [0x3C, 0, 0, 7] ∧
      decode s.cfg (fetchFormat s) [0x3C, 0, 0, 7] = .ok .lscReadStatus ∧ s.cfg.cmd.distinct = true := by decide

theorem witness_DutifulStepAnswersNext :
    dutiful (rspAt .rst5 (.ok [1, 2, 3, 4])) = true ∧ dutiful (rspAt .rst4 (.ok [])) = true := by decide

theorem witness_WrongResponseLengthStops :
    let s := rspAt .rst5 (.ok [])
    s.port.hwRst = false ∧ waitsTransport s = true ∧ s.port.rsp = some (.ok []) ∧
      ([] : List Byte).length ≠ s.upc.readLen s.cfg := by decide

theorem witness_NothingEnabledNothingChanges :
    (at_ .upl3 .wait).port.hwRst = false ∧ enabled (at_ .upl3 .wait) = false ∧
    enabled { at_ .upl1 .wait with dly := 1 } = false ∧ enabled (at_ .idle .issue) = false := by decide

theorem witness_WaitsWithoutBound :
    let q := [Ports.atReset, Ports.atReset]
    (∀ p ∈ q, p.hwRst = false ∧ p.rsp = none ∧ p.tick = false ∧ p.opValid = false) ∧
    (let s := { at_ .fin0 .wait with stim := [Ports.atReset] }
     s.port :: s.stim = q ∧ waitsTransport s = true) ∧
    (let s := { at_ .ers3 .wait with stim := [Ports.atReset], dly := 1 }
     s.port :: s.stim = q ∧ waitsTick s = true) ∧
    (let s := { at_ .idle .issue with stim := [Ports.atReset] }
     s.port :: s.stim = q ∧ s.upc = .idle) := by decide

/-- In IDLE with no operation presented every level but op_valid may differ, with RESET presented op_len too. -/
theorem witness_InputsAreReadWhereEnabled_idle :
    (let s := at_ .idle .issue
     let p : Ports := ⟨false, false, 5, 9, img [1], true, some (.err 1), true⟩
     s.port.hwRst = false ∧ p.hwRst = false ∧ p.opValid = s.port.opValid ∧ s.port.opValid = false ∧
       waitsTransport s = false ∧ waitsTick s = false ∧ (after (step s)).isSome = true) ∧
    (let s := { at_ .idle .issue with port := { Ports.atReset with opValid := true, op := 1 } }
     let p : Ports := ⟨false, true, 1, 9, img [1], true, some (.err 1), true⟩
     p.opValid = s.port.opValid ∧ p.op = s.port.op ∧ s.port.op ≠ 3 ∧ (after (step s)).isSome = true) := by decide

/-- At UPL2 only the draw must agree; the other lines differ. -/
theorem witness_InputsAreReadWhereEnabled :
    let s := at_ .upl2 .issue
    let p : Ports := ⟨false, true, 5, 9, img [1], false, some (.err 1), true⟩
    s.port.hwRst = false ∧ p.hwRst = false ∧ s.upc ≠ .idle ∧ waitsTransport s = false ∧ waitsTick s = false ∧
      p.allocOk = s.port.allocOk ∧ s.upc ≠ .upl3 ∧ (after (step s)).isSome = true := by decide

theorem witness_AcceptanceDispatches :
    let s := { at_ .idle .issue with port := { Ports.atReset with opValid := true, op := 7 }, phase := .failed }
    s.upc = .idle ∧ s.port.hwRst = false ∧ s.port.opValid = true := by decide

theorem witness_ReservedCodeEndsAtOnce : (at_ .idle .issue).upc = .idle := by decide

theorem witness_BusyBlockTakesNoOperation :
    (at_ .rst0 .issue).upc ≠ .idle ∧ Instr.reserved111.cmd? = none ∧ (after (step (at_ .rst0 .issue))).isSome = true := by
  decide

theorem witness_CommandsIssueTheirFrame :
    (∀ u ∈ [Upc.rst1, .rst4, .ers0, .ers2, .fin0, .upl0, .rst5, .upl4],
      (at_ u .issue).ph = .issue ∧ (at_ u .issue).upc = u) := by decide

theorem witness_CommandsCompleteOnSuccess :
    (∀ u ∈ [Upc.rst1, .rst4, .ers0, .ers2, .fin0, .upl0, .upl3],
      (rspAt u (.ok [])).ph = .wait ∧ (rspAt u (.ok [])).upc = u ∧ (rspAt u (.ok [])).port.rsp = some (.ok [])) ∧
    (∀ u ∈ [Upc.rst5, .upl4],
      (rspAt u (.ok [0, 0, 0, 0xFF])).ph = .wait ∧ (rspAt u (.ok [0, 0, 0, 0xFF])).upc = u ∧
      (rspAt u (.ok [0, 0, 0, 0xFF])).port.rsp = some (.ok [0, 0, 0, 0xFF])) := by decide

/-- One attempt left, none left, and no retry at all. -/
theorem witness_RaiseAbortsOrRetries :
    (let s := { at_ .rst5 .wait with opr := 6, att := 0 }
     (s.opr = 5 ∨ s.opr = 6) ∧ s.upc.inRst = true ∧ s.att + 1 < s.cfg.maxResetAttempts) ∧
    (let s := { at_ .rst5 .wait with opr := 5, att := 1 }
     (s.opr = 5 ∨ s.opr = 6) ∧ s.upc.inRst = true ∧ ¬ s.att + 1 < s.cfg.maxResetAttempts) ∧
    (let s := { at_ .ers2 .wait with opr := 6 }
     ¬ ((s.opr = 5 ∨ s.opr = 6) ∧ s.upc.inRst = true)) := by decide

theorem witness_TransportErrorIsRaised :
    ∀ u ∈ [Upc.rst1, .rst4, .rst5, .ers0, .ers2, .upl0, .upl3, .upl4, .fin0],
      (rspAt u (.err 0xFFFFFFFF)).upc.cmd?.isSome = true ∧ (rspAt u (.err 0xFFFFFFFF)).ph = .wait ∧
      (rspAt u (.err 0xFFFFFFFF)).port.rsp = some (.err 0xFFFFFFFF) := by decide

/-- The internal micro-operations in their ISSUE phase: LineMicroOperations, IdentityCheckDecides, AllocationDraw,
DoneIsAuthoritative, RoutinesEndWithOk. -/
theorem witness_internal_micro_operations :
    ∀ u ∈ [Upc.rst0, .rst2, .rst6, .upl2, .upl5, .ers4, .fin1, .qry0],
      (at_ u .issue).port.hwRst = false ∧ (at_ u .issue).ph = .issue ∧ (at_ u .issue).upc = u := by decide

theorem witness_IdentityCheckDecides :
    (let s := { at_ .rst6 .issue with idr := 0x43002C01, opr := 6 }
     s.idr = s.cfg.expectedIdcode ∧ s.opr = 6) ∧
    (let s := { at_ .rst6 .issue with idr := 0x43002C01, opr := 1 }
     s.idr = s.cfg.expectedIdcode ∧ s.opr ≠ 6) ∧
    (let s := { at_ .rst6 .issue with idr := 0x43002C00 }
     s.idr ≠ s.cfg.expectedIdcode) := by decide

theorem witness_AllocationDraw :
    ({ at_ .upl2 .issue with port := { Ports.atReset with allocOk := true } }).port.allocOk = true ∧
    (at_ .upl2 .issue).port.allocOk = false := by decide

theorem witness_DoneIsAuthoritative :
    ({ at_ .upl5 .issue with doneF := true }).doneF = true ∧ (at_ .upl5 .issue).doneF = false := by decide

/-- A delay of no tick and the longest one. -/
theorem witness_PromptDelayTakesItsSteps :
    (let s := { at_ .rst3 .issue with cfg := { cfg0 with tResetSettle := 0 } }
     s.ph = .issue ∧ s.upc.delay? s.cfg = some 0) ∧
    (let s := { at_ .upl1 .issue with cfg := { cfg0 with tInitSettle := 255 } }
     s.ph = .issue ∧ s.upc.delay? s.cfg = some 255) := by decide

/-- Two ticks with a pause between them: the delay of two ends with the second, not before; and the forms of a step. -/
theorem witness_DelayCountsTicks :
    (let p := { Ports.atReset with tick := true }
     let s := { at_ .rst3 .wait with dly := 2, port := p, stim := [Ports.atReset, p] }
     (∀ q ∈ s.port :: s.stim, q.hwRst = false) ∧ s.upc.delay? s.cfg = some 10 ∧ s.ph = .wait ∧
       ticks ((s.port :: s.stim).take 3) = s.dly ∧ ticks ((s.port :: s.stim).take 2) < s.dly) ∧
    (at_ .ers1 .issue).ph = .issue ∧ (at_ .ers1 .wait).dly = 0 ∧ ({ at_ .ers1 .wait with dly := 1 }).dly ≠ 0 := by
  decide

theorem witness_SentinelNeverPasses :
    let s := { rspAt .rst5 (.ok [0xFF, 0xFF, 0xFF, 0xFF]) with opr := 1 }
    s.upc = .rst5 ∧ s.ph = .wait ∧ s.opr = 1 ∧ s.cfg.idReadLen = 4 ∧ s.cfg = cfg0 ∧
      (∀ x : Byte, cfg0.expectedIdcode ≠ x ++ x ++ x ++ x) ∧
      s.port.hwRst = false ∧ s.port.rsp = some (.ok [0xFF, 0xFF, 0xFF, 0xFF]) ∧ Ports.atReset.hwRst = false := by
  exact ⟨rfl, rfl, rfl, rfl, rfl, by decide, rfl, rfl, rfl⟩

/-- The least and the greatest MAX_XFER, with T = 4 and one byte above a whole number of chunks. -/
theorem witness_ChunkLaws :
    cfg0.cmd.lscBitstreamBurst.length = cfg0.prefixLen ∧ (1 ≤ 1 ∧ 1 ≤ 65535 ∧ cfg0.prefixLen ≤ 4) ∧
    (1 ≤ 65535 ∧ 65535 ≤ 65535 ∧ cfg0.prefixLen ≤ 65536 ∧ 1 < ceilDiv 65536 65535) := by decide

theorem witness_ChunkLoopRefinesChunks :
    (1 ≤ (1 : BitVec 16).toNat ∧ 1 ≤ 4 ∧ 3 < ceilDiv 4 (1 : BitVec 16).toNat) ∧
    (1 ≤ (65535 : BitVec 16).toNat ∧ 1 ≤ 0x100000003) := by decide

theorem witness_BurstCarriesTheWholeImage :
    let s := { at_ .upl3 .issue with len := 0xFFFFFFFF, tot := 0x100000003 }
    s.upc = .upl3 ∧ s.ph = .issue ∧ s.cfg.wf = true ∧ s.tot = s.len + s.cfg.prefixLen := by decide

theorem witness_HardwareResetFromAnyState :
    ({ at_ .upl3 .wait with port := { Ports.atReset with hwRst := true } }).port.hwRst = true := by decide

/-- Two different states that agree where it matters. -/
theorem witness_UnspecifiedRegistersNeverShow :
    LiveEq (at_ .idle .issue) { at_ .idle .issue with opr := 5, att := 2, idr := 7, off := 1 } ∧
    at_ .idle .issue ≠ { at_ .idle .issue with opr := 5, att := 2, idr := 7, off := 1 } ∧
    (after (step (at_ .idle .issue))).isSome = true := by decide

/-- The whole operations: an idle state, and scripts for the outcomes. -/
theorem witness_runs :
    (at_ .idle .issue).upc = .idle ∧
    (⟨[.ok [], .err 1], true, []⟩ : Script).rsps = (EraseRun.eraseFails 1).rsps ++ [] ∧
    (⟨[.ok [], .ok []], true, []⟩ : Script).rsps = .ok [] :: [.ok []] ∧
    (⟨[.err 7], true, []⟩ : Script).rsps = .err 7 :: [] ∧
    (⟨[.ok [], .ok [], .ok [1, 0x2C, 0, 0x43]], true, []⟩ : Script).rsps = (Attempt.identity [1, 0x2C, 0, 0x43]).rsps ++ [] ∧
    Attempt.fits cfg0 (.identity [1, 0x2C, 0, 0x43]) = true ∧
    Attempt.error cfg0 (.identity [1, 0x2C, 0, 0x43]) = none ∧
    Attempt.error cfg0 (.activateFails 5) = some (.transport, 5) := by decide

/-- RESET_RETRY and WRITE_INIT: a failure and a success, and two failures. -/
theorem witness_retried_runs :
    let s := at_ .idle .issue
    let bad : Attempt := .identity [0xFF, 0xFF, 0xFF, 0xFF]
    let good : Attempt := .identity [1, 0x2C, 0, 0x43]
    s.upc = .idle ∧ (∀ a ∈ [bad] ++ [good], a.fits s.cfg = true) ∧ (∀ a ∈ [bad], (a.error s.cfg).isSome = true) ∧
      [bad].length < s.cfg.maxResetAttempts ∧ good.error s.cfg = none ∧ [bad].length + 1 = s.cfg.maxResetAttempts ∧
      bad.error s.cfg = some (.identityMismatch, 0xFFFFFFFF) := by decide

theorem witness_UploadRuns :
    UploadRun.fits cfg0 true (.status [0, 1, 0, 0]) = true ∧ UploadRun.done cfg0 (.status [0, 1, 0, 0]) = true ∧
    UploadRun.fits cfg0 true (.status [0, 0x30, 0, 0]) = true ∧ UploadRun.done cfg0 (.status [0, 0x30, 0, 0]) = false ∧
    UploadRun.fits cfg0 false .noBuffer = true ∧ UploadRun.fits cfg0 true (.burstFails 2) = true ∧
    UploadRun.fits cfg0 true (.statusFails 3) = true ∧ UploadRun.fits cfg0 false (.initFails 4) = true ∧
    (⟨[.ok [], .err 2], true, []⟩ : Script).rsps = (UploadRun.burstFails 2).rsps ++ [] := by decide

theorem witness_HostLinesPresentTheirOperation :
    (at_ .idle .issue).upc = .idle ∧
    (HostLine.upload (.ramp 8)).instr.wf (at_ .idle .issue).cfg = true ∧
    fetched ((HostLine.upload (.ramp 8)).present (at_ .idle .issue)) = some (.upload 8) := by decide

/-- A register that changes, one state for each clause with a change: RegistersAreWrittenWhereNamed. -/
theorem witness_RegistersAreWrittenWhereNamed :
    (after (step (rspAt .rst5 (.ok [1, 0, 0, 0])))).map (fun t => t.idr) = some 1 ∧
    (after (step (rspAt .upl4 (.ok [1, 0, 0, 0])))).map (fun t => t.sr) = some 1 ∧
    (after (step (at_ .rst0 .issue))).map (fun t => t.rstl) = some true ∧
    (after (step { at_ .fin1 .issue with opr := 4 })).map (fun t => (t.loaded, t.resValid)) = some (true, true) ∧
    (after (step { rspAt .rst4 (.err 7) with opr := 5 })).map (fun t => t.att) = some 1 ∧
    (after (step (at_ .rst3 .issue))).map (fun t => t.dly) = some 10 ∧
    (after (step { at_ .idle .issue with port := { Ports.atReset with opValid := true, op := 3, opLen := 5 } })).map
      (fun t => (t.opr, t.len, t.tot)) = some (3, 5, 9) := by decide

/-- A step of a running operation: ControlTransfersAreListed, OperationsEnd, RegistersAreWrittenWhereNamed. -/
theorem witness_running_step :
    let s := { rspAt .rst4 (.err 7) with opr := 5 }
    s.port.hwRst = false ∧ s.upc ≠ .idle ∧ enabled s = true ∧
      ctl (step s) = some (.rst0, .issue) ∧ s.upc ≠ .rst0 := by decide

theorem witness_transfer_to_erase :
    let s := { at_ .rst6 .issue with opr := 6, idr := 0x43002C01 }
    s.port.hwRst = false ∧ s.upc = .rst6 ∧ ctl (step s) = some (.ers0, .issue) := by decide

/-- The last step of an operation: ResultsPerOperation, ResultDetails. -/
theorem witness_last_step :
    (let s := { rspAt .ers2 (.err 9) with opr := 2 }
     RetryInv s ∧ s.port.hwRst = false ∧ s.upc ≠ .idle ∧
       res (step s) = some (true, .transport, 9) ∧ ctl (step s) = some (.idle, .issue)) ∧
    (let s := { at_ .rst6 .issue with opr := 1, idr := 0xAA }
     RetryInv s ∧ res (step s) = some (true, .identityMismatch, 0xAA)) ∧
    (let s := { at_ .upl5 .issue with opr := 3, sr := 0x1000 }
     RetryInv s ∧ res (step s) = some (true, .uploadIncomplete, 0x1000)) ∧
    (let s := { at_ .upl2 .issue with opr := 3 }
     RetryInv s ∧ res (step s) = some (true, .allocation, 0)) ∧
    (let s := { at_ .qry0 .issue with opr := 0 }
     RetryInv s ∧ res (step s) = some (true, .ok, 1)) :=
  ⟨by decide, by decide, by decide, by decide, by decide⟩

theorem witness_PhaseChangesAsListed :
    let s := { at_ .rst0 .issue with phase := .failed }
    s.port.hwRst = false ∧ (after (step s)).map (fun t => t.phase) = some .resetPending ∧
      Phase.resetPending ≠ s.phase := by decide

theorem witness_RequestsHaveThreeShapes :
    let s := at_ .rst5 .issue
    s.port.hwRst = false ∧ (after (step s)).map (fun t => t.xfq) = some (some (writeReadReq cfg0 .readIdcode 4)) ∧
      s.xfq = none := by decide

theorem witness_StepKeepsControlInv :
    ControlInv (rspAt .rst5 (.ok [1, 2, 3, 4])) ∧ (after (step (rspAt .rst5 (.ok [1, 2, 3, 4])))).isSome = true := by decide

theorem witness_StepKeepsRetryInv :
    let s := { rspAt .rst4 (.err 7) with opr := 5, att := 1 }
    RetryInv s ∧ (after (step s)).isSome = true := by decide

theorem witness_StepKeepsLineInv :
    let s := { rspAt .rst1 (.ok []) with rstl := true, phase := .resetPending }
    LineInv s ∧ (after (step s)).isSome = true := by decide

theorem witness_StepKeepsRegisterInv :
    let s := { at_ .upl1 .wait with dly := 100, len := 8, tot := 12, port := { Ports.atReset with tick := true } }
    RegisterInv s ∧ (after (step s)).isSome = true := by
  refine ⟨⟨by decide, by decide, ?_⟩, by decide⟩
  intro n hn _
  simp [at_, Upc.delay?, cfg0] at hn
  subst hn
  decide

theorem witness_FlagsDecoded :
    let s := { rspAt .upl4 (.ok [0, 1, 0, 0]) with sr := 0x2000, failF := true }
    s.port.hwRst = false ∧ FlagsDecoded s ∧ (after (step s)).isSome = true := by decide

theorem witness_StepKeepsRequestInv :
    let s := { at_ .upl3 .issue with len := 1, tot := 5 }
    RequestInv s ∧ (after (step s)).isSome = true := by
  refine ⟨⟨by decide, by decide, by decide, ?_⟩, by decide⟩
  intro r hr
  simp [at_, State.reset] at hr

end Sys2Proof.Machine.Tests
end

/-! PROOFS. The statements of 00_scope.md: words and bytes (R9), what the decoder makes of encoded bytes (R7 (e)), and
the constraints on the hardware's parameters (R7). -/

namespace Sys2Proof

/-! ### Little-endian numbers (00_scope.md R9) -/

@[simp] theorem leNat_nil : leNat [] = 0 := rfl

@[simp] theorem leNat_cons (b : Byte) (bs : List Byte) : leNat (b :: bs) = b.toNat + 256 * leNat bs := rfl

theorem leNat_lt (bs : List Byte) : leNat bs < 256 ^ bs.length := by
  induction bs with
  | nil => simp
  | cons b bs ih =>
    have hb : b.toNat < 256 := b.isLt
    rw [leNat_cons, List.length_cons, Nat.pow_succ]
    omega

/-- The `k` low bytes of `n` are `n` modulo 256 ^ k. -/
theorem leNat_leBytes (k n : Nat) : leNat (leBytes k n) = n % 256 ^ k := by
  induction k generalizing n with
  | zero => simp [leBytes, Nat.mod_one]
  | succ k ih =>
    calc leNat (leBytes (k + 1) n) = n % 256 + 256 * (n / 256 % 256 ^ k) := by simp [leBytes, ih]
      _ = n % 256 ^ (k + 1) := by rw [Nat.pow_succ', Nat.mod_mul]

/-- A word of 4 bytes loses nothing of their number. -/
theorem toNat_le32 {bs : List Byte} (h : bs.length = 4) : (le32 bs).toNat = leNat bs := by
  have hlt : leNat bs < 2 ^ 32 := by simpa [h] using leNat_lt bs
  rw [le32, BitVec.toNat_ofNat, Nat.mod_eq_of_lt hlt]

/-- Appending a byte below `x` shifts `x` by 256. -/
theorem toNat_append_byte {w : Nat} (x : BitVec w) (b : Byte) : (x ++ b).toNat = 256 * x.toNat + b.toNat := by
  rw [BitVec.toNat_append, ← Nat.shiftLeft_add_eq_or_of_lt b.isLt, Nat.shiftLeft_eq]
  omega

theorem readWord_of_length {bs : List Byte} (k : Cmd) (h : bs.length = 4) : Machine.readWord k bs = le32 bs :=
  if_pos h

/-- Settles O6: both readings of the word have the number of the four bytes. -/
theorem littleEndianWords : Obligations.LittleEndianWords := by
  intro b0 b1 b2 b3
  have hle : (le32 [b0, b1, b2, b3]).toNat =
      b0.toNat + 256 * b1.toNat + 65536 * b2.toNat + 16777216 * b3.toNat := by
    rw [toNat_le32 rfl]
    simp only [leNat_cons, leNat_nil]
    omega
  refine ⟨hle, BitVec.eq_of_toNat_eq ?_, fun k => readWord_of_length k rfl⟩
  rw [hle]
  simp only [toNat_append_byte]
  omega

/-! ### Encoded bytes decode (30_encoding.md R91, R96) -/

/-- The bytes set aside for `op_len` hold its LEN_W bits. -/
theorem two_pow_lenW_le (c : Config) : 2 ^ c.lenW ≤ 256 ^ c.lenBytes := by
  have hbits : c.lenW ≤ 8 * c.lenBytes := by
    unfold Config.lenBytes
    omega
  calc 2 ^ c.lenW ≤ 2 ^ (8 * c.lenBytes) := Nat.pow_le_pow_right (by decide) hbits
    _ = 256 ^ c.lenBytes := Nat.pow_mul 2 8 c.lenBytes

theorem leNat_leBytes_opLen {c : Config} {n : Nat} (h : n < 2 ^ c.lenW) : leNat (leBytes c.lenBytes n) = n := by
  rw [leNat_leBytes, Nat.mod_eq_of_lt (h.trans_le (two_pow_lenW_le c))]

/-- A code and an operand of LEN_W bits, laid out as bytes, decode to the operation that the code selects. -/
theorem decode_opBytes {c : Config} {n : Nat} (op : BitVec 3) (h : n < 2 ^ c.lenW) :
    decode c .hostop (opBytes c op n) = .ok (decodeOp op n) := by
  have hop : ¬ 8 ≤ op.toNat := Nat.not_le.mpr op.isLt
  have hbyte : (op.setWidth 8).toNat = op.toNat := BitVec.toNat_setWidth_of_le (by decide)
  have hcode : (op.setWidth 8).setWidth 3 = op := BitVec.setWidth_setWidth_of_le op (by decide)
  simp [decode, opBytes, Laws.leBytes_length, leNat_leBytes_opLen h, hbyte, hcode, hop, Nat.not_le.mpr h]

theorem Cmd.mem_all (k : Cmd) : k ∈ Cmd.all := by
  cases k <;> decide

/-- A frame decodes to a command with that frame, not always the one it was taken from: the first of those that
share it. -/
theorem decodeFrame_frame (rom : CmdRom) (k : Cmd) :
    ∃ k', rom.frame k' = rom.frame k ∧ decodeFrame rom (rom.frame k) = .ok (Instr.ofCmd k') := by
  unfold decodeFrame
  split
  · next k' hfound => exact ⟨k', by simpa using List.find?_some hfound, rfl⟩
  · next hnone => exact absurd (List.find?_eq_none.mp hnone k k.mem_all) (by simp)

@[simp] theorem format_ofCmd (k : Cmd) : (Instr.ofCmd k).format = .cmdframe := by
  cases k <;> rfl

@[simp] theorem encode_ofCmd (c : Config) (k : Cmd) : encode c (Instr.ofCmd k) = c.cmd.frame k := by
  cases k <;> rfl

/-- `i` is the host operation of the code `op` with `n` on `op_len`, and is encoded so. -/
structure EncodedAs (c : Config) (i : Instr) (op : BitVec 3) (n : Nat) : Prop where
  format : i.format = .hostop
  bytes : encode c i = opBytes c op n
  fits : n < 2 ^ c.lenW
  selected : decodeOp op n = i

/-- A code without operand is encoded with 0 on `op_len` (30_encoding.md R92). -/
theorem EncodedAs.ofCode {c : Config} {i : Instr} {op : BitVec 3} (hformat : i.format = .hostop)
    (hbytes : encode c i = opBytes c op 0) (hselected : decodeOp op 0 = i) : EncodedAs c i op 0 :=
  ⟨hformat, hbytes, Nat.two_pow_pos _, hselected⟩

/-- A well-formed instruction is a host operation in one of the eight codes, or one of the eight commands. -/
theorem encodedAs_or_ofCmd {c : Config} {i : Instr} (h : i.wf c = true) :
    (∃ op n, EncodedAs c i op n) ∨ ∃ k, i = Instr.ofCmd k := by
  cases i with
  | queryState => exact .inl ⟨0, 0, .ofCode rfl rfl rfl⟩
  | reset => exact .inl ⟨1, 0, .ofCode rfl rfl rfl⟩
  | prepareErase => exact .inl ⟨2, 0, .ofCode rfl rfl rfl⟩
  | upload n => exact .inl ⟨3, n, rfl, rfl, of_decide_eq_true h, rfl⟩
  | finalize => exact .inl ⟨4, 0, .ofCode rfl rfl rfl⟩
  | resetRetry => exact .inl ⟨5, 0, .ofCode rfl rfl rfl⟩
  | writeInit => exact .inl ⟨6, 0, .ofCode rfl rfl rfl⟩
  | reserved111 => exact .inl ⟨7, 0, .ofCode rfl rfl rfl⟩
  | activate => exact .inr ⟨.activate, rfl⟩
  | iscEnable => exact .inr ⟨.iscEnable, rfl⟩
  | iscErase => exact .inr ⟨.iscErase, rfl⟩
  | iscDisable => exact .inr ⟨.iscDisable, rfl⟩
  | readIdcode => exact .inr ⟨.readIdcode, rfl⟩
  | lscInit => exact .inr ⟨.lscInit, rfl⟩
  | lscBitstreamBurst => exact .inr ⟨.lscBitstreamBurst, rfl⟩
  | lscReadStatus => exact .inr ⟨.lscReadStatus, rfl⟩

/-- The bytes of a host operation decode to that operation, whatever the frames are. -/
theorem EncodedAs.decode_encode {c : Config} {i : Instr} {op : BitVec 3} {n : Nat} (h : EncodedAs c i op n) :
    decode c i.format (encode c i) = .ok i := by
  rw [h.format, h.bytes, decode_opBytes op h.fits, h.selected]

/-- Settles O3: a host operation decodes to itself, a frame to the first command that has it. -/
theorem decodeEncodeSameBytes : Obligations.DecodeEncodeSameBytes := by
  intro c i hwf
  rcases encodedAs_or_ofCmd hwf with ⟨op, n, henc⟩ | ⟨k, rfl⟩
  · exact ⟨i, rfl, henc.decode_encode, rfl⟩
  · obtain ⟨k', hframe, hdecode⟩ := decodeFrame_frame c.cmd k
    refine ⟨Instr.ofCmd k', by simp, ?_, by simpa using hframe⟩
    rw [format_ofCmd, encode_ofCmd]
    exact hdecode

/-! ### The hardware's parameters (00_scope.md R6, R7) -/

/-- The flags stand at three places of one permutation of the 32 bits. -/
theorem statusBitsOk_hardware : Config.hardware.statusBitsOk = true := by
  simp [Config.statusBitsOk, Config.hardware]

theorem tErasePre_hardware : 1 ≤ Config.hardware.tErasePre ∧ Config.hardware.tErasePre < 50 := by
  have hlt := Config.openErasePreLessOne.isLt
  simp only [Config.hardware]
  omega

theorem erasePreOk_hardware : Config.hardware.erasePreOk = true := by
  obtain ⟨hpos, hlt⟩ := tErasePre_hardware
  have hsettle : Config.hardware.tErasePre < Config.hardware.tEraseSettle := hlt
  simp [Config.erasePreOk, hpos, hsettle]

theorem delaysOk_hardware : Config.hardware.delaysOk = true := by
  have hpre : Config.hardware.tErasePre < 2 ^ Config.hardware.dlyW :=
    tErasePre_hardware.2.trans (by decide)
  simp only [Config.delaysOk, hpre, decide_true, Bool.and_true]
  decide

theorem length_openFrame (k : Cmd) : (Config.openFrame k).length = 4 :=
  List.length_ofFn

theorem length_frame_hardware (k : Cmd) : (Config.hardware.cmd.frame k).length = 4 := by
  cases k <;> exact length_openFrame _

theorem framesOk_hardware : Config.hardware.framesOk = true := by
  have hburst : Config.hardware.cmd.lscBitstreamBurst.length = Config.hardware.prefixLen :=
    length_frame_hardware .lscBitstreamBurst
  simp only [Config.framesOk, hburst, length_frame_hardware]
  decide

/-- Settles O7: the OPEN parameters occur in the flag positions, the short delay and the frames; every other check is
of numbers. -/
theorem hardwareParametersAdmitted : Obligations.HardwareParametersAdmitted := by
  have hmax : Config.hardware.maxXferOk = true := by decide
  have hattempts : Config.hardware.attemptsOk = true := by decide
  have hlengths : Config.hardware.lengthsOk = true := by decide
  have hwidths : Config.hardware.widthsOk = true := by decide
  refine ⟨?_, by decide⟩
  simp [Config.wf, statusBitsOk_hardware, hmax, hattempts, erasePreOk_hardware, delaysOk_hardware, framesOk_hardware,
    hlengths, hwidths]

end Sys2Proof

/-! PROOFS. The statements of 10_state.md. First a layer of rules about one step: what acceptance does, that every `Move`
is a step and no other step stops, what a `Move` does to control (`Transfer`) and to the other registers (`Write`). Then
the live part of the state (R42), the registers and PHASE (R22 to R33, R37), the invariants and reset (R39). -/

namespace Sys2Proof.Machine

/-! ### Acceptance (40_sequencer.md R133, R134) -/

/-- The first address of the routine that a code selects; IDLE for the reserved code, which runs none. -/
def routineEntry (op : BitVec 3) : Upc :=
  match op.toNat with
  | 0 => .qry0
  | 1 | 5 | 6 => .rst0
  | 2 => .ers0
  | 3 => .upl0
  | 4 => .fin0
  | _ => .idle

/-- The registers after the idle block has taken the operation `op` with `n` on `op_len`. -/
def acceptOp (op : BitVec 3) (n : Nat) (s : State) : State :=
  if op = 7 then finish .illegalOp 7 { s with opr := 7, att := 0 }
  else
    goto (routineEntry op)
      { s with
        opr := op
        att := 0
        resValid := false
        len := if op = 3 then n else s.len
        tot := if op = 3 then n + s.cfg.prefixLen else s.tot }

theorem op_cases (op : BitVec 3) :
    op = 0 ∨ op = 1 ∨ op = 2 ∨ op = 3 ∨ op = 4 ∨ op = 5 ∨ op = 6 ∨ op = 7 := by
  revert op
  decide

theorem mem_runBy_routineEntry (op : BitVec 3) : op ∈ (routineEntry op).runBy := by
  revert op
  decide

theorem routineEntry_eq_idle_iff (op : BitVec 3) : routineEntry op = .idle ↔ op = 7 := by
  revert op
  decide

theorem inUpl_routineEntry_iff (op : BitVec 3) : (routineEntry op).inUpl = true ↔ op = 3 := by
  revert op
  decide

/-- No routine begins with a check of what was read. -/
theorem routineEntry_ne_checks (op : BitVec 3) : routineEntry op ≠ .rst6 ∧ routineEntry op ≠ .upl5 := by
  revert op
  decide

theorem exec_decodeOp_of_idle {s : State} (hu : s.upc = .idle) (op : BitVec 3) (n : Nat) :
    exec (decodeOp op n) s = .next (acceptOp op n s) := by
  rcases op_cases op with rfl | rfl | rfl | rfl | rfl | rfl | rfl | rfl
  · exact congrArg _ (if_pos hu)
  · exact congrArg _ (if_pos hu)
  · exact congrArg _ (if_pos hu)
  · exact (if_pos hu).trans (congrArg _ (if_pos hu))
  · exact congrArg _ (if_pos hu)
  · exact congrArg _ (if_pos hu)
  · exact congrArg _ (if_pos hu)
  · exact if_pos hu

/-- `Move.accepted` with the accepted operation's effect written out. -/
theorem eq_acceptOp {s u : State} (hu : s.upc = .idle)
    (h : exec (decodeOp s.port.op (portLen s)) s = .next u) : u = acceptOp s.port.op (portLen s) s := by
  simpa [exec_decodeOp_of_idle hu] using h.symm

/-! ### Addresses (40_sequencer.md R131) -/

theorem Upc.delay?_of_cmd? {u : Upc} {k : Cmd} (h : u.cmd? = some k) (c : Config) : u.delay? c = none := by
  cases u <;> simp_all [Upc.cmd?, Upc.delay?]

theorem Upc.cmd?_of_delay? {u : Upc} {c : Config} {n : Nat} (h : u.delay? c = some n) : u.cmd? = none := by
  cases u <;> simp_all [Upc.cmd?, Upc.delay?]

theorem Upc.ne_idle_of_cmd? {u : Upc} {k : Cmd} (h : u.cmd? = some k) : u ≠ .idle := by
  rintro rfl
  cases h

theorem Upc.ne_idle_of_delay? {u : Upc} {c : Config} {n : Nat} (h : u.delay? c = some n) : u ≠ .idle := by
  rintro rfl
  cases h

theorem Upc.ne_idle_of_inRst {u : Upc} (h : u.inRst = true) : u ≠ .idle := by
  rintro rfl
  cases h

theorem Upc.inUpl_of_next {u : Upc} (h : u.next.inUpl = true) : u.inUpl = true := by
  revert h
  cases u <;> decide

theorem Upc.eq_rst5_of_next {u : Upc} (h : u.next = .rst6) : u = .rst5 := by
  revert h
  cases u <;> decide

theorem Upc.eq_upl4_of_next {u : Upc} (h : u.next = .upl5) : u = .upl4 := by
  revert h
  cases u <;> decide

/-! ### Every move is a step -/

theorem step_of_fetched_none {s : State} (hr : s.port.hwRst = false) (hf : fetched s = none) :
    step s = .next (nextPort (micro s)) := by
  simp [step, hr, hf]

theorem step_of_cmd {s : State} {c : Cmd} (hr : s.port.hwRst = false) (hc : s.upc.cmd? = some c) :
    step s = afterStep (exec (Instr.ofCmd c) s) := by
  simp [step, hr, fetched, hc, Upc.ne_idle_of_cmd? hc]

theorem step_of_delay {s : State} {n : Nat} (hr : s.port.hwRst = false) (hn : s.upc.delay? s.cfg = some n) :
    step s = .next (nextPort (delay n s)) := by
  cases hu : s.upc <;> simp only [hu, Upc.delay?, reduceCtorEq, Option.some.injEq] at hn <;> subst hn
  · exact step_at_rst3 hr hu
  · exact step_at_ers1 hr hu
  · exact step_at_ers3 hr hu
  · exact step_at_upl1 hr hu

/-- `s` with its request answered by an error: the line of a failing RST1 is released under `release`
(41_reset.md R173). -/
def answeredByError (s : State) : State :=
  { s with
    xfq := none
    rstl := if s.upc = .rst1 ∧ s.cfg.rstOnAbort = .release then false else s.rstl }

theorem answeredByError_of_ne_rst1 {s : State} (hu : s.upc ≠ .rst1) : answeredByError s = { s with xfq := none } := by
  simp [answeredByError, hu]

theorem answeredByError_of_rst1 {s : State} (hu : s.upc = .rst1) :
    answeredByError s = abortLine { s with xfq := none } := by
  rw [abortLine_eq, abortLine_rstl]
  simp [answeredByError, hu]

/-- The instruction of a transport micro-operation is a transaction: its read is that of the address, and its error is
TRANSPORT. -/
theorem exec_ofCmd_eq_transact {s : State} {c : Cmd} (hc : s.upc.cmd? = some c) :
    ∃ onIssue onOk onErr,
      exec (Instr.ofCmd c) s = transact onIssue (s.upc.readLen s.cfg) onOk onErr s ∧
      ∀ code, onErr code { s with xfq := none } = raiseTransport code (answeredByError s) := by
  cases hu : s.upc <;> simp only [hu, Upc.cmd?, reduceCtorEq, Option.some.injEq] at hc <;> subst hc
  case rst1 =>
    exact ⟨_, _, _, if_pos (by rw [hu]; rfl), fun code => by rw [answeredByError_of_rst1 hu, hu]⟩
  all_goals
    exact ⟨_, _, _, if_pos (by rw [hu]; rfl), fun code => by rw [answeredByError_of_ne_rst1 (by simp [hu]), hu]⟩

theorem step_of_error {s : State} {c : Cmd} {code : Nat} (hr : s.port.hwRst = false) (hc : s.upc.cmd? = some c)
    (hp : s.ph = .wait) (hrsp : s.port.rsp = some (.err code)) :
    step s = .next (nextPort (raiseTransport code (answeredByError s))) := by
  obtain ⟨_, _, onErr, hexec, herr⟩ := exec_ofCmd_eq_transact hc
  rw [step_of_cmd hr hc, hexec, ← herr]
  simp [transact, hp, xferDone, hrsp]

theorem step_of_silence {s : State} {c : Cmd} (hr : s.port.hwRst = false) (hc : s.upc.cmd? = some c)
    (hp : s.ph = .wait) (hrsp : s.port.rsp = none) : step s = .next (nextPort s) := by
  obtain ⟨_, _, _, hexec, -⟩ := exec_ofCmd_eq_transact hc
  rw [step_of_cmd hr hc, hexec]
  simp [transact, hp, xferDone, hrsp]

theorem transact_fault_iff {onIssue : State → State} {want : Nat} {onOk : List Byte → State → State}
    {onErr : Nat → State → State} {s : State} {f : Fault} :
    transact onIssue want onOk onErr s = .fault f ↔
      s.ph = .wait ∧ ∃ b, s.port.rsp = some (.ok b) ∧ b.length ≠ want ∧ f = .responseLength want b.length := by
  cases hp : s.ph with
  | issue => simp [transact, hp]
  | wait =>
    rcases hrsp : s.port.rsp with _ | ⟨b⟩ | _
    · simp [transact, hp, xferDone, hrsp]
    · by_cases hl : b.length = want
      · simp [transact, hp, xferDone, hrsp, hl]
      · simpa [transact, hp, xferDone, hrsp, hl] using eq_comm
    · simp [transact, hp, xferDone, hrsp]

theorem afterStep_eq_fault_iff {o : Host.Outcome State Fault Refusal} {f : Fault} :
    afterStep o = .fault f ↔ o = .fault f := by
  cases o <;> simp [afterStep]

/-- The one stop of the machine: a success of the wrong length. It depends on no working register. -/
theorem step_fault_iff {s : State} {f : Fault} :
    step s = .fault f ↔
      s.port.hwRst = false ∧ s.upc.cmd?.isSome = true ∧ s.ph = .wait ∧
        ∃ b, s.port.rsp = some (.ok b) ∧ b.length ≠ s.upc.readLen s.cfg ∧
          f = .responseLength (s.upc.readLen s.cfg) b.length := by
  cases hr : s.port.hwRst with
  | true => simp [step_hwRst hr]
  | false =>
    cases hc : s.upc.cmd? with
    | some c =>
      obtain ⟨_, _, _, hexec, -⟩ := exec_ofCmd_eq_transact hc
      simp [step_of_cmd hr hc, hexec, afterStep_eq_fault_iff, transact_fault_iff]
    | none =>
      by_cases hu : s.upc = .idle
      · rw [step_at_idle hr hu, exec_decodeOp_of_idle hu]
        cases s.port.opValid <;> simp
      · simp [step_of_fetched_none hr (show fetched s = none by simp [fetched, hu, hc])]

theorem step_of_not_enabled {s : State} (hr : s.port.hwRst = false) (h : enabled s = false) :
    step s = .next (nextPort s) := by
  cases hp : s.ph with
  | issue =>
    obtain ⟨hu, hv⟩ : s.upc = .idle ∧ s.port.opValid = false := by simpa [enabled, hp] using h
    simp [step_at_idle hr hu, hv]
  | wait =>
    cases hc : s.upc.cmd? with
    | some c => exact step_of_silence hr hc hp (by simpa [enabled, hp, hc] using h)
    | none =>
      cases hn : s.upc.delay? s.cfg with
      | some n =>
        obtain ⟨h0, ht⟩ : s.dly ≠ 0 ∧ s.port.tick = false := by simpa [enabled, hp, hc, hn] using h
        simp [step_of_delay hr hn, delay, hp, h0, ht]
      | none =>
        by_cases hu : s.upc = .idle
        · have hv : s.port.opValid = false := by simpa [enabled, hp, hu, Upc.cmd?, Upc.delay?] using h
          simp [step_at_idle hr hu, hv]
        · rw [step_of_fetched_none hr (by simp [fetched, hu, hc])]
          cases hu : s.upc <;> simp_all [micro, atIssue, Upc.cmd?, Upc.delay?]

/-- The converse of `step_move`: what a `Move` says is what the step does. -/
theorem Move.step_eq {s u : State} (hm : Move s u) (hr : s.port.hwRst = false) : step s = .next (nextPort u) := by
  cases hm with
  | stay h => exact step_of_not_enabled hr h
  | accepted u hu hv h => rw [step_at_idle hr hu, if_pos hv, h]; rfl
  | issued c hc hp hk =>
    rw [step_of_cmd hr hc]
    rcases hk with rfl | rfl | rfl | rfl <;>
      simp [Instr.ofCmd, exec, execActivate, execIscEnable, execIscErase, execIscDisable, atSender, hc, send, transact,
        hp]
  | initIssued hu hp => simp [step_at_upl0 hr hu, transact, hp]
  | idIssued hu hp => simp [step_at_rst5 hr hu, sendRecv, transact, hp]
  | statusIssued hu hp => simp [step_at_upl4 hr hu, sendRecv, transact, hp]
  | burstIssued hu hp => simp [step_at_upl3 hr hu, burst, transact, hp]
  | failed c code hc hp hrsp => exact step_of_error hr hc hp hrsp
  | wrote c hc hp hrsp hk =>
    rw [step_of_cmd hr hc]
    cases c <;>
      simp_all [Instr.ofCmd, exec, execActivate, execIscEnable, execIscErase, execIscDisable, execLscInit,
        execLscBitstreamBurst, atSender, send, burst, transact, xferDone]
  | idRead b hu hp hrsp hl => simp [step_at_rst5 hr hu, sendRecv, transact, hp, xferDone, hrsp, hl]
  | statusRead b hu hp hrsp hl => simp [step_at_upl4 hr hu, sendRecv, transact, hp, xferDone, hrsp, hl]
  | delayLoaded n hn hp => simp [step_of_delay hr hn, delay, hp]
  | ticked n hn hp h0 ht => simp [step_of_delay hr hn, delay, hp, h0, ht]
  | delayDone n hn hp h0 => simp [step_of_delay hr hn, delay, hp, h0]
  | lineUp hu hp => simp [step_at_rst0 hr hu, atIssue, hp]
  | lineDown hu hp => simp [step_at_rst2 hr hu, atIssue, hp]
  | idChecked hu hp => simp [step_at_rst6 hr hu, atIssue, hp]
  | eraseEnded hu hp => simp [step_at_ers4 hr hu, atIssue, hp]
  | drawn hu hp => simp [step_at_upl2 hr hu, atIssue, hp]
  | doneChecked hu hp => simp [step_at_upl5 hr hu, atIssue, hp]
  | finalEnded hu hp => simp [step_at_fin1 hr hu, atIssue, hp]
  | queried hu hp => simp [step_at_qry0 hr hu, atIssue, hp]

/-! ### Errors and transfers of control -/

/-- What makes a step take an error (60_exceptions.md R276, R280). -/
inductive ErrorArises (s : State) : Prop
  /-- the Transport answers a request with an error -/
  | transport (code : Nat) (hc : s.upc.cmd?.isSome = true) (hp : s.ph = .wait) (hr : s.port.rsp = some (.err code))
  /-- RST6 finds another identity -/
  | identity (hu : s.upc = .rst6) (hp : s.ph = .issue) (hne : s.idr ≠ s.cfg.expectedIdcode)
  /-- UPL2 draws no buffer -/
  | noBuffer (hu : s.upc = .upl2) (ha : s.port.allocOk = false)
  /-- UPL5 finds DONE clear -/
  | notDone (hu : s.upc = .upl5) (hd : s.doneF = false)

/-- OPR and ATT, by which the running operation is known, are those of `s`. -/
structure SameOp (s u : State) : Prop where
  opr : u.opr = s.opr
  att : u.att = s.att

/-- The result registers are those of `s`. -/
structure SameResult (s u : State) : Prop where
  valid : u.resValid = s.resValid
  code : u.resCode = s.resCode
  detail : u.resDetail = s.resDetail

/-- What a step without `hw_rst` does to UPC, OPR, ATT and the result registers. -/
inductive Transfer (s u : State) : Prop
  /-- UPC stays -/
  | kept (hupc : u.upc = s.upc) (hop : SameOp s u) (hres : SameResult s u)
  /-- a micro-operation completes -/
  | next (hrun : s.upc ≠ .idle) (hupc : u.upc = s.upc.next) (hop : SameOp s u) (hres : SameResult s u)
  /-- an operation is accepted -/
  | accepted (hidle : s.upc = .idle) (hop : s.port.op ≠ 7) (hupc : u.upc = routineEntry s.port.op)
      (hopr : u.opr = s.port.op) (hatt : u.att = 0) (hvalid : u.resValid = false) (hcode : u.resCode = s.resCode)
      (hdetail : u.resDetail = s.resDetail)
  /-- the reserved code is accepted and ended -/
  | reserved (hidle : s.upc = .idle) (hupc : u.upc = .idle) (hopr : u.opr = s.port.op) (hatt : u.att = 0)
      (hvalid : u.resValid = true)
  /-- an operation ends -/
  | ended (hrun : s.upc ≠ .idle) (hupc : u.upc = .idle) (hop : SameOp s u) (hvalid : u.resValid = true)
  /-- WRITE_INIT goes on from RST to ERS -/
  | toErase (hat : s.upc = .rst6) (hopr : s.opr = 6) (hupc : u.upc = .ers0) (hop : SameOp s u) (hres : SameResult s u)
  /-- a wrapped reset fails and is tried again -/
  | retried (herr : ErrorArises s) (hretries : retries s = true) (hbound : s.att + 1 < s.cfg.maxResetAttempts)
      (hupc : u.upc = .rst0) (hopr : u.opr = s.opr) (hatt : u.att = s.att + 1) (hres : SameResult s u)
  /-- a wrapped reset fails for the last time -/
  | exhausted (herr : ErrorArises s) (hretries : retries s = true) (hupc : u.upc = .idle) (hopr : u.opr = s.opr)
      (hatt : u.att = s.att + 1) (hvalid : u.resValid = true)

theorem transfer_acceptOp {s : State} (hu : s.upc = .idle) (n : Nat) : Transfer s (acceptOp s.port.op n s) := by
  unfold acceptOp
  split
  · next h7 => exact .reserved hu rfl h7.symm rfl rfl
  · next h7 => exact .accepted hu h7 rfl rfl rfl rfl rfl rfl

/-- Taking an error, from a state `v` that holds the operation and the result of `s`. -/
theorem transfer_raiseError {s v : State} (herr : ErrorArises s) (hrun : s.upc ≠ .idle) (hcfg : v.cfg = s.cfg)
    (hupc : v.upc = s.upc) (hop : SameOp s v) (hres : SameResult s v) (e : ResCode) (d : Word) :
    Transfer s (raiseError e d v) := by
  have hretries : retries v = retries s := by rw [retries, retries, hupc, hop.opr]
  rcases raiseError_cases e d v with ⟨hr, hb, he⟩ | ⟨hr, -, he⟩ | ⟨-, he⟩ <;> rw [he]
  · exact .retried herr (hretries ▸ hr) (by rwa [hop.att, hcfg] at hb) rfl hop.opr (congrArg (· + 1) hop.att)
      ⟨hres.valid, hres.code, hres.detail⟩
  · exact .exhausted herr (hretries ▸ hr) rfl hop.opr (congrArg (· + 1) hop.att) rfl
  · exact .ended hrun rfl ⟨hop.opr, hop.att⟩ rfl

theorem transfer_retOk {s v : State} (hrun : s.upc ≠ .idle) (hupc : v.upc = s.upc) (hop : SameOp s v)
    (hres : SameResult s v) : Transfer s (retOk v) := by
  rcases retOk_cases v with ⟨h6, hu, he⟩ | ⟨-, he⟩ <;> rw [he]
  · exact .toErase (hupc ▸ hu) (hop.opr ▸ h6) rfl ⟨hop.opr, hop.att⟩ ⟨hres.valid, hres.code, hres.detail⟩
  · exact .ended hrun rfl ⟨hop.opr, hop.att⟩ rfl

theorem Move.transfer {s u : State} (hm : Move s u) : Transfer s u := by
  cases hm with
  | stay hs => exact .kept rfl ⟨rfl, rfl⟩ ⟨rfl, rfl, rfl⟩
  | accepted u hu hv he =>
    obtain rfl := eq_acceptOp hu he
    exact transfer_acceptOp hu _
  | issued | initIssued | idIssued | statusIssued | burstIssued | delayLoaded | ticked =>
    exact .kept rfl ⟨rfl, rfl⟩ ⟨rfl, rfl, rfl⟩
  | failed c code hc hp hrsp =>
    exact transfer_raiseError (v := answeredByError s) (.transport code (by rw [hc]; rfl) hp hrsp)
      (Upc.ne_idle_of_cmd? hc) rfl rfl ⟨rfl, rfl⟩ ⟨rfl, rfl, rfl⟩ _ _
  | wrote c hc => exact .next (Upc.ne_idle_of_cmd? hc) rfl ⟨rfl, rfl⟩ ⟨rfl, rfl, rfl⟩
  | delayDone n hn => exact .next (Upc.ne_idle_of_delay? hn) rfl ⟨rfl, rfl⟩ ⟨rfl, rfl, rfl⟩
  | idRead _ hu | statusRead _ hu | lineUp hu | lineDown hu =>
    exact .next (by simp [hu]) rfl ⟨rfl, rfl⟩ ⟨rfl, rfl, rfl⟩
  | idChecked hu hp =>
    have hrun : s.upc ≠ .idle := by simp [hu]
    unfold microRst6
    split
    · exact transfer_retOk hrun rfl ⟨rfl, rfl⟩ ⟨rfl, rfl, rfl⟩
    · next hne => exact transfer_raiseError (.identity hu hp hne) hrun rfl rfl ⟨rfl, rfl⟩ ⟨rfl, rfl, rfl⟩ _ _
  | drawn hu hp =>
    have hrun : s.upc ≠ .idle := by simp [hu]
    unfold microUpl2
    split
    · exact .next hrun (by rw [hu]; rfl) ⟨rfl, rfl⟩ ⟨rfl, rfl, rfl⟩
    · next ha =>
      exact transfer_raiseError (.noBuffer hu (by simpa using ha)) hrun rfl rfl ⟨rfl, rfl⟩ ⟨rfl, rfl, rfl⟩ _ _
  | doneChecked hu hp =>
    have hrun : s.upc ≠ .idle := by simp [hu]
    unfold microUpl5
    split
    · exact transfer_retOk hrun rfl ⟨rfl, rfl⟩ ⟨rfl, rfl, rfl⟩
    · next hd =>
      exact transfer_raiseError (.notDone hu (by simpa using hd)) hrun rfl rfl ⟨rfl, rfl⟩ ⟨rfl, rfl, rfl⟩ _ _
  | eraseEnded hu | finalEnded hu =>
    exact transfer_retOk (by simp [hu]) rfl ⟨rfl, rfl⟩ ⟨rfl, rfl, rfl⟩
  | queried hu => exact .ended (by simp [hu]) rfl ⟨rfl, rfl⟩ rfl

/-! ### Writes to the other registers -/

/-- The parameters and the registers that neither control nor result nor the ghost PHASE is in are those of `s`. -/
structure SameData (s u : State) : Prop where
  cfg : u.cfg = s.cfg
  len : u.len = s.len
  tot : u.tot = s.tot
  off : u.off = s.off
  cl : u.cl = s.cl
  dly : u.dly = s.dly
  idr : u.idr = s.idr
  sr : u.sr = s.sr
  doneF : u.doneF = s.doneF
  busyF : u.busyF = s.busyF
  failF : u.failF = s.failF
  rstl : u.rstl = s.rstl
  loaded : u.loaded = s.loaded

/-- What a step without `hw_rst` writes to those registers: the state it leaves has the data of `s` after at most one
write. -/
inductive Write (s u : State) : Prop
  /-- no register is written -/
  | nothing (h : SameData s u)
  /-- acceptance of UPLOAD latches LEN and TOT -/
  | upload (hu : s.upc = .idle) (hop : s.port.op = 3)
      (h : SameData { s with len := portLen s, tot := portLen s + s.cfg.prefixLen } u)
  /-- RST5 reads the identity -/
  | identity (b : List Byte) (hu : s.upc = .rst5) (hp : s.ph = .wait) (hr : s.port.rsp = some (.ok b))
      (h : SameData { s with idr := readWord .readIdcode b } u)
  /-- UPL4 reads the status -/
  | status (b : List Byte) (hu : s.upc = .upl4) (hp : s.ph = .wait) (hr : s.port.rsp = some (.ok b))
      (h : SameData (setStatus (readWord .lscReadStatus b) s) u)
  /-- UPL3 issues the burst -/
  | burst (hu : s.upc = .upl3) (hp : s.ph = .issue) (h : SameData (burstIssue s) u)
  /-- a DELAY loads its counter -/
  | load (n : Nat) (hn : s.upc.delay? s.cfg = some n) (hp : s.ph = .issue) (h : SameData { s with dly := n } u)
  /-- a DELAY counts a tick -/
  | tick (n : Nat) (hn : s.upc.delay? s.cfg = some n) (hp : s.ph = .wait) (h0 : s.dly ≠ 0)
      (ht : s.port.tick = true) (h : SameData { s with dly := s.dly - 1 } u)
  /-- RST0 begins a run -/
  | lineUp (hu : s.upc = .rst0) (h : SameData { s with rstl := true, loaded := false } u)
  /-- RST2 releases the line -/
  | lineDown (hu : s.upc = .rst2) (h : SameData { s with rstl := false } u)
  /-- a request is answered by an error -/
  | error (code : Nat) (hp : s.ph = .wait) (hr : s.port.rsp = some (.err code)) (h : SameData (answeredByError s) u)
  /-- FIN1 ends a configuration -/
  | complete (hu : s.upc = .fin1) (h : SameData { s with loaded := true } u)

theorem sameData_raiseError (e : ResCode) (d : Word) (s : State) : SameData s (raiseError e d s) := by
  constructor <;> simp

theorem sameData_endOk (p : Phase) (s : State) : SameData s (endOk p s) := by
  constructor <;> simp [endOk]

theorem sameData_microRst6 (s : State) : SameData s (microRst6 s) := by
  unfold microRst6
  split
  · exact sameData_endOk _ s
  · exact sameData_raiseError _ _ s

theorem sameData_microUpl2 (s : State) : SameData s (microUpl2 s) := by
  unfold microUpl2
  split
  · constructor <;> rfl
  · exact sameData_raiseError _ _ s

theorem sameData_microUpl5 (s : State) : SameData s (microUpl5 s) := by
  unfold microUpl5
  split
  · exact sameData_endOk _ s
  · exact sameData_raiseError _ _ s

theorem write_acceptOp {s : State} (hu : s.upc = .idle) : Write s (acceptOp s.port.op (portLen s) s) := by
  unfold acceptOp
  split
  · exact .nothing (by constructor <;> rfl)
  · by_cases h3 : s.port.op = 3
    · simp only [h3, if_true]
      exact .upload hu h3 (by constructor <;> rfl)
    · simp only [h3, if_false]
      exact .nothing (by constructor <;> rfl)

theorem Move.write {s u : State} (hm : Move s u) : Write s u := by
  cases hm with
  | accepted u hu hv he =>
    obtain rfl := eq_acceptOp hu he
    exact write_acceptOp hu
  | failed c code hc hp hrsp => exact .error code hp hrsp (sameData_raiseError _ _ (answeredByError s))
  | idRead b hu hp hrsp => exact .identity b hu hp hrsp (by constructor <;> rfl)
  | statusRead b hu hp hrsp => exact .status b hu hp hrsp (by constructor <;> rfl)
  | burstIssued hu hp => exact .burst hu hp (by constructor <;> rfl)
  | delayLoaded n hn hp => exact .load n hn hp (by constructor <;> rfl)
  | ticked n hn hp h0 ht => exact .tick n hn hp h0 ht (by constructor <;> rfl)
  | lineUp hu => exact .lineUp hu (by constructor <;> rfl)
  | lineDown hu => exact .lineDown hu (by constructor <;> rfl)
  | finalEnded hu => exact .complete hu (sameData_endOk _ { s with loaded := true })
  | idChecked => exact .nothing (sameData_microRst6 s)
  | drawn => exact .nothing (sameData_microUpl2 s)
  | doneChecked => exact .nothing (sameData_microUpl5 s)
  | eraseEnded => exact .nothing (sameData_endOk _ s)
  | stay | issued | initIssued | idIssued | statusIssued | wrote | delayDone | queried =>
    exact .nothing (by constructor <;> rfl)

/-! ### States that agree on their live part (10_state.md R42) -/

/-- Agreement on the parameters, the inputs and every register that is never dead, UPC and PH apart. -/
structure OutsideEq (s t : State) : Prop where
  cfg : s.cfg = t.cfg
  port : s.port = t.port
  stim : s.stim = t.stim
  xfq : s.xfq = t.xfq
  rstl : s.rstl = t.rstl
  resValid : s.resValid = t.resValid
  resCode : s.resCode = t.resCode
  resDetail : s.resDetail = t.resDetail
  loaded : s.loaded = t.loaded
  phase : s.phase = t.phase

/-- Agreement on UPC, PH and the working registers that are live there. -/
structure WorkingEq (s t : State) : Prop where
  upc : s.upc = t.upc
  ph : s.ph = t.ph
  op : s.upc ≠ .idle → s.opr = t.opr ∧ s.att = t.att
  upload : s.upc.inUpl = true → s.len = t.len ∧ s.tot = t.tot
  dly : (s.upc.delay? s.cfg).isSome → s.ph = .wait → s.dly = t.dly
  idr : s.upc = .rst6 → s.idr = t.idr
  status : s.upc = .upl5 → s.sr = t.sr ∧ s.doneF = t.doneF

theorem liveEq_iff {s t : State} : LiveEq s t ↔ OutsideEq s t ∧ WorkingEq s t := by
  constructor
  · rintro ⟨hcfg, hport, hstim, hupc, hph, hxfq, hrstl, hvalid, hcode, hdetail, hloaded, hphase, hop, hupl, hdly, hidr,
      hsr⟩
    exact ⟨⟨hcfg, hport, hstim, hxfq, hrstl, hvalid, hcode, hdetail, hloaded, hphase⟩,
      ⟨hupc, hph, hop, hupl, hdly, hidr, hsr⟩⟩
  · rintro ⟨ho, hw⟩
    exact ⟨ho.cfg, ho.port, ho.stim, hw.upc, hw.ph, ho.xfq, ho.rstl, ho.resValid, ho.resCode, ho.resDetail, ho.loaded,
      ho.phase, hw.op, hw.upload, hw.dly, hw.idr, hw.status⟩

theorem LiveEq.refl (s : State) : LiveEq s s := by
  simp [LiveEq]

theorem LiveEq.nextPort {s t : State} (h : LiveEq s t) : LiveEq (nextPort s) (nextPort t) := by
  obtain ⟨hcfg, hport, hstim, hrest⟩ := h
  unfold Machine.nextPort
  rw [← hport, ← hstim]
  split
  · exact ⟨hcfg, rfl, rfl, hrest⟩
  · exact ⟨hcfg, rfl, rfl, hrest⟩

theorem LiveEq.hwReset_eq {s t : State} (h : LiveEq s t) : hwReset s = hwReset t := by
  obtain ⟨hcfg, hport, hstim, -⟩ := h
  unfold Machine.hwReset
  rw [hcfg, hport, hstim]

/-- What is enabled depends on no working register but the DLY of a delay that drains. -/
theorem LiveEq.enabled_eq {s t : State} (h : LiveEq s t) : enabled t = enabled s := by
  obtain ⟨ho, hw⟩ := liveEq_iff.mp h
  unfold enabled
  rw [← ho.cfg, ← ho.port, ← hw.upc, ← hw.ph]
  split
  · rfl
  · rfl
  · next n _ hn hp => rw [hw.dly (by rw [hn]; rfl) hp]
  · rfl

/-! #### Transfers of control -/

/-- The registers live at the beginning of a micro-operation; DLY is not among them. -/
theorem liveEq_goto {s t : State} {u : Upc} (h : OutsideEq s t)
    (hop : u ≠ .idle → s.opr = t.opr ∧ s.att = t.att) (hupl : u.inUpl = true → s.len = t.len ∧ s.tot = t.tot)
    (hidr : u = .rst6 → s.idr = t.idr) (hsr : u = .upl5 → s.sr = t.sr ∧ s.doneF = t.doneF) :
    LiveEq (goto u s) (goto u t) :=
  liveEq_iff.mpr ⟨by exact { h with }, rfl, rfl, hop, hupl, fun _ => nofun, hidr, hsr⟩

/-- In IDLE no working register is live. -/
theorem liveEq_finish {s t : State} (h : OutsideEq s t) (e : ResCode) (d : Word) :
    LiveEq (finish e d s) (finish e d t) :=
  liveEq_goto { h with xfq := rfl, resValid := rfl, resCode := rfl, resDetail := rfl }
    (fun hne => absurd rfl hne) nofun nofun nofun

theorem liveEq_of_idle {s t : State} (h : OutsideEq s t) (hupc : s.upc = t.upc) (hph : s.ph = t.ph)
    (hu : s.upc = .idle) : LiveEq s t :=
  liveEq_iff.mpr ⟨h, hupc, hph, fun hne => absurd hu hne, by simp [hu, Upc.inUpl], by simp [hu, Upc.delay?],
    by simp [hu], by simp [hu]⟩

theorem liveEq_acceptOp {s t : State} (h : OutsideEq s t) (op : BitVec 3) (n : Nat) :
    LiveEq (acceptOp op n s) (acceptOp op n t) := by
  unfold acceptOp
  split
  · exact liveEq_finish (by exact { h with }) _ _
  · refine liveEq_goto (by exact { h with resValid := rfl }) (fun _ => ⟨rfl, rfl⟩) (fun hupl => ?_)
      (fun h6 => absurd h6 (routineEntry_ne_checks op).1) (fun h5 => absurd h5 (routineEntry_ne_checks op).2)
    simp [(inUpl_routineEntry_iff op).mp hupl, h.cfg]

/-- At RST0 only OPR and ATT are live. -/
theorem liveEq_retryOrFinish {s t : State} (h : OutsideEq s t) (hopr : s.opr = t.opr) (hatt : s.att = t.att)
    (e : ResCode) (d : Word) : LiveEq (retryOrFinish e d s) (retryOrFinish e d t) := by
  have hbound : s.att + 1 < s.cfg.maxResetAttempts ↔ t.att + 1 < t.cfg.maxResetAttempts := by rw [hatt, h.cfg]
  unfold retryOrFinish
  by_cases hs : s.att + 1 < s.cfg.maxResetAttempts
  · rw [if_pos hs, if_pos (hbound.mp hs)]
    exact liveEq_goto (by exact { h with }) (fun _ => ⟨hopr, congrArg (· + 1) hatt⟩) nofun nofun nofun
  · rw [if_neg hs, if_neg (mt hbound.mpr hs)]
    exact liveEq_finish (by exact { h with }) e d

theorem liveEq_raiseError {s t : State} (h : OutsideEq s t) (hupc : s.upc = t.upc) (hopr : s.opr = t.opr)
    (hatt : s.att = t.att) (e : ResCode) (d : Word) : LiveEq (raiseError e d s) (raiseError e d t) := by
  have hretries : retries t = retries s := by rw [retries, retries, hupc, hopr]
  have hfailed : OutsideEq { s with phase := .failed, xfq := none } { t with phase := .failed, xfq := none } :=
    { h with xfq := rfl, phase := rfl }
  unfold raiseError
  rw [hretries]
  split
  · exact liveEq_retryOrFinish hfailed hopr hatt e d
  · exact liveEq_finish hfailed e d

theorem liveEq_raiseTransport {s t : State} (h : OutsideEq s t) (hupc : s.upc = t.upc) (hopr : s.opr = t.opr)
    (hatt : s.att = t.att) (code : Nat) : LiveEq (raiseTransport code s) (raiseTransport code t) := by
  rw [raiseTransport_eq, raiseTransport_eq, ← h.cfg]
  exact liveEq_raiseError h hupc hopr hatt _ _

theorem liveEq_retOk {s t : State} (h : OutsideEq s t) (hupc : s.upc = t.upc) (hopr : s.opr = t.opr)
    (hatt : s.att = t.att) : LiveEq (retOk s) (retOk t) := by
  unfold retOk
  rw [← hupc, ← hopr]
  split
  · exact liveEq_goto h (fun _ => ⟨hopr, hatt⟩) nofun nofun nofun
  · exact liveEq_finish h .ok 0

/-- The routine goes on where the next check, if any, reads what has just been written. -/
theorem liveEq_gotoNext {s t : State} (ho : OutsideEq s t) (hw : WorkingEq s t) (hu : s.upc ≠ .idle)
    (hidr : s.upc = .rst5 → s.idr = t.idr) (hsr : s.upc = .upl4 → s.sr = t.sr ∧ s.doneF = t.doneF) :
    LiveEq (gotoNext s) (gotoNext t) := by
  unfold gotoNext
  rw [← hw.upc]
  exact liveEq_goto ho (fun _ => hw.op hu) (fun hn => hw.upload (Upc.inUpl_of_next hn))
    (fun hn => hidr (Upc.eq_rst5_of_next hn)) (fun hn => hsr (Upc.eq_upl4_of_next hn))

/-! #### Updates of what is never dead -/

theorem OutsideEq.advance {s t : State} (h : OutsideEq s t) (p : Phase) : OutsideEq (advance p s) (advance p t) :=
  { h with phase := by rw [advance_phase, advance_phase, h.phase] }

theorem OutsideEq.answeredByError {s t : State} (h : OutsideEq s t) (hupc : s.upc = t.upc) :
    OutsideEq (answeredByError s) (answeredByError t) :=
  { h with
    xfq := rfl
    rstl := by simp only [Machine.answeredByError, hupc, h.cfg, h.rstl] }

theorem LiveEq.advance {s t : State} (h : LiveEq s t) (p : Phase) : LiveEq (advance p s) (advance p t) := by
  obtain ⟨ho, hw⟩ := liveEq_iff.mp h
  exact liveEq_iff.mpr ⟨ho.advance p, { hw with }⟩

theorem LiveEq.xferIssue {s t : State} {c : Cmd} (h : LiveEq s t) (hc : s.upc.cmd? = some c) (r : Request) :
    LiveEq (xferIssue r s) (xferIssue r t) := by
  obtain ⟨ho, hw⟩ := liveEq_iff.mp h
  have hnodelay : (s.upc.delay? s.cfg).isSome → s.dly = t.dly := by simp [Upc.delay?_of_cmd? hc]
  exact liveEq_iff.mpr ⟨{ ho with xfq := rfl }, { hw with ph := rfl, dly := fun hd _ => hnodelay hd }⟩

/-- The burst reads TOT, which is live in UPL; OFF and CL are dead. -/
theorem LiveEq.burstIssue {s t : State} (h : LiveEq s t) (hu : s.upc = .upl3) :
    LiveEq (burstIssue s) (burstIssue t) := by
  obtain ⟨ho, hw⟩ := liveEq_iff.mp h
  obtain ⟨-, htot⟩ := hw.upload (by rw [hu]; rfl)
  refine liveEq_iff.mpr ⟨{ ho with xfq := ?_ }, { hw with ph := rfl, dly := ?_ }⟩
  · rw [burstIssue_xfq, burstIssue_xfq, ho.cfg, ho.port, htot]
  · simp [hu, Upc.delay?]

/-! #### The internal micro-operations that decide -/

theorem liveEq_microRst6 {s t : State} (ho : OutsideEq s t) (hw : WorkingEq s t) (hu : s.upc = .rst6) :
    LiveEq (microRst6 s) (microRst6 t) := by
  obtain ⟨hopr, hatt⟩ := hw.op (by simp [hu])
  unfold microRst6
  rw [← ho.cfg, ← hw.idr hu]
  split
  · exact liveEq_retOk (ho.advance _) hw.upc hopr hatt
  · exact liveEq_raiseError ho hw.upc hopr hatt _ _

theorem liveEq_microUpl2 {s t : State} (ho : OutsideEq s t) (hw : WorkingEq s t) (hu : s.upc = .upl2) :
    LiveEq (microUpl2 s) (microUpl2 t) := by
  obtain ⟨hopr, hatt⟩ := hw.op (by simp [hu])
  unfold microUpl2
  rw [← ho.port]
  split
  · exact liveEq_goto ho (fun _ => ⟨hopr, hatt⟩) (fun _ => hw.upload (by rw [hu]; rfl)) nofun nofun
  · exact liveEq_raiseError ho hw.upc hopr hatt _ _

theorem liveEq_microUpl5 {s t : State} (ho : OutsideEq s t) (hw : WorkingEq s t) (hu : s.upc = .upl5) :
    LiveEq (microUpl5 s) (microUpl5 t) := by
  obtain ⟨hopr, hatt⟩ := hw.op (by simp [hu])
  obtain ⟨hsr, hdone⟩ := hw.status hu
  unfold microUpl5
  rw [← hsr, ← hdone]
  split
  · exact liveEq_retOk (ho.advance _) hw.upc hopr hatt
  · exact liveEq_raiseError ho hw.upc hopr hatt _ _

theorem liveEq_endOk {s t : State} (ho : OutsideEq s t) (hw : WorkingEq s t) (hu : s.upc ≠ .idle) (p : Phase) :
    LiveEq (endOk p s) (endOk p t) :=
  liveEq_retOk (ho.advance p) hw.upc (hw.op hu).1 (hw.op hu).2

/-! #### Every move, every step -/

/-- A command that reads nothing is sent neither by RST5 nor by UPL4. -/
theorem sender_of_write {u : Upc} {c : Cmd} (hc : u.cmd? = some c) (hk : c ≠ .readIdcode ∧ c ≠ .lscReadStatus) :
    u ≠ .rst5 ∧ u ≠ .upl4 := by
  obtain ⟨hid, hst⟩ := hk
  constructor
  · rintro rfl
    exact hid (Option.some.inj hc).symm
  · rintro rfl
    exact hst (Option.some.inj hc).symm

/-- Every move of a state is matched in a state that agrees with it on the live part, and they go on agreeing. -/
theorem Move.liveEq {s s' u : State} (hm : Move s u) (h : LiveEq s s') : ∃ u', Move s' u' ∧ LiveEq u u' := by
  obtain ⟨ho, hw⟩ := liveEq_iff.mp h
  have hcfg := ho.cfg
  have hport := ho.port
  have hupc := hw.upc
  have hph := hw.ph
  cases hm with
  | stay hs => exact ⟨s', .stay (h.enabled_eq.trans hs), h⟩
  | accepted u hu hv he =>
    obtain rfl := eq_acceptOp hu he
    have hpl : portLen s' = portLen s := by rw [portLen, portLen, hcfg, hport]
    refine ⟨acceptOp s.port.op (portLen s) s', .accepted _ (hupc ▸ hu) (hport ▸ hv) ?_, liveEq_acceptOp ho _ _⟩
    rw [← hport, hpl]
    exact exec_decodeOp_of_idle (hupc ▸ hu) _ _
  | issued c hc hp hk =>
    exact ⟨_, .issued c (hupc ▸ hc) (hph ▸ hp) hk, hcfg ▸ h.xferIssue hc (writeReq s.cfg c)⟩
  | initIssued hu hp =>
    exact ⟨_, .initIssued (hupc ▸ hu) (hph ▸ hp),
      hcfg ▸ (h.xferIssue (by rw [hu]; rfl) (writeReq s.cfg .lscInit)).advance .streaming⟩
  | idIssued hu hp =>
    exact ⟨_, .idIssued (hupc ▸ hu) (hph ▸ hp),
      hcfg ▸ h.xferIssue (by rw [hu]; rfl) (writeReadReq s.cfg .readIdcode s.cfg.idReadLen)⟩
  | statusIssued hu hp =>
    exact ⟨_, .statusIssued (hupc ▸ hu) (hph ▸ hp),
      hcfg ▸ h.xferIssue (by rw [hu]; rfl) (writeReadReq s.cfg .lscReadStatus s.cfg.statusReadLen)⟩
  | burstIssued hu hp => exact ⟨_, .burstIssued (hupc ▸ hu) (hph ▸ hp), h.burstIssue hu⟩
  | failed c code hc hp hrsp =>
    obtain ⟨hopr, hatt⟩ := hw.op (Upc.ne_idle_of_cmd? hc)
    exact ⟨_, .failed c code (hupc ▸ hc) (hph ▸ hp) (hport ▸ hrsp),
      liveEq_raiseTransport (ho.answeredByError hupc) hupc hopr hatt code⟩
  | wrote c hc hp hrsp hk =>
    obtain ⟨h5, h4⟩ := sender_of_write hc hk
    exact ⟨_, .wrote c (hupc ▸ hc) (hph ▸ hp) (hport ▸ hrsp) hk,
      liveEq_gotoNext (by exact { ho with xfq := rfl }) (by exact { hw with }) (Upc.ne_idle_of_cmd? hc)
        (fun hu => absurd hu h5) (fun hu => absurd hu h4)⟩
  | idRead b hu hp hrsp hl =>
    exact ⟨_, .idRead b (hupc ▸ hu) (hph ▸ hp) (hport ▸ hrsp) (hcfg ▸ hl),
      liveEq_gotoNext (by exact { ho with xfq := rfl }) (by exact { hw with idr := fun _ => rfl }) (by simp [hu])
        (fun _ => rfl) (by simp [hu])⟩
  | statusRead b hu hp hrsp hl =>
    have hdone : (setStatus (readWord .lscReadStatus b) { s with xfq := none }).doneF =
        (setStatus (readWord .lscReadStatus b) { s' with xfq := none }).doneF := by simp [hcfg]
    exact ⟨_, .statusRead b (hupc ▸ hu) (hph ▸ hp) (hport ▸ hrsp) (hcfg ▸ hl),
      liveEq_gotoNext (by exact { ho with xfq := rfl }) (by exact { hw with status := fun _ => ⟨rfl, hdone⟩ })
        (by simp [hu]) (by simp [hu]) (fun _ => ⟨rfl, hdone⟩)⟩
  | delayLoaded n hn hp =>
    exact ⟨_, .delayLoaded n (hcfg ▸ hupc ▸ hn) (hph ▸ hp),
      liveEq_iff.mpr ⟨{ ho with }, { hw with ph := rfl, dly := fun _ _ => rfl }⟩⟩
  | ticked n hn hp h0 ht =>
    have hdly := hw.dly (by rw [hn]; rfl) hp
    exact ⟨_, .ticked n (hcfg ▸ hupc ▸ hn) (hph ▸ hp) (hdly ▸ h0) (hport ▸ ht),
      liveEq_iff.mpr ⟨{ ho with }, { hw with dly := fun _ _ => congrArg (· - 1) hdly }⟩⟩
  | delayDone n hn hp h0 =>
    have hdly := hw.dly (by rw [hn]; rfl) hp
    have hc := Upc.cmd?_of_delay? hn
    exact ⟨_, .delayDone n (hcfg ▸ hupc ▸ hn) (hph ▸ hp) (hdly ▸ h0),
      liveEq_gotoNext ho hw (Upc.ne_idle_of_delay? hn) (fun hu => by simp [hu, Upc.cmd?] at hc)
        (fun hu => by simp [hu, Upc.cmd?] at hc)⟩
  | lineUp hu hp =>
    exact ⟨_, .lineUp (hupc ▸ hu) (hph ▸ hp),
      liveEq_gotoNext (by exact { ho with rstl := rfl, loaded := rfl, phase := rfl }) (by exact { hw with })
        (by simp [hu]) (by simp [hu]) (by simp [hu])⟩
  | lineDown hu hp =>
    exact ⟨_, .lineDown (hupc ▸ hu) (hph ▸ hp),
      liveEq_gotoNext (by exact { ho with rstl := rfl }) (by exact { hw with })
        (by simp [hu]) (by simp [hu]) (by simp [hu])⟩
  | idChecked hu hp => exact ⟨_, .idChecked (hupc ▸ hu) (hph ▸ hp), liveEq_microRst6 ho hw hu⟩
  | eraseEnded hu hp => exact ⟨_, .eraseEnded (hupc ▸ hu) (hph ▸ hp), liveEq_endOk ho hw (by simp [hu]) _⟩
  | drawn hu hp => exact ⟨_, .drawn (hupc ▸ hu) (hph ▸ hp), liveEq_microUpl2 ho hw hu⟩
  | doneChecked hu hp => exact ⟨_, .doneChecked (hupc ▸ hu) (hph ▸ hp), liveEq_microUpl5 ho hw hu⟩
  | finalEnded hu hp =>
    exact ⟨_, .finalEnded (hupc ▸ hu) (hph ▸ hp),
      liveEq_endOk (by exact { ho with loaded := rfl }) (by exact { hw with }) (by simp [hu]) _⟩
  | queried hu hp =>
    refine ⟨_, .queried (hupc ▸ hu) (hph ▸ hp), ?_⟩
    unfold microQry0
    rw [← hcfg]
    exact liveEq_finish ho _ _

theorem LiveEq.step_next {s s' t : State} (h : LiveEq s s') (hs : step s = .next t) :
    ∃ t', step s' = .next t' ∧ LiveEq t t' := by
  have hport : s.port = s'.port := (liveEq_iff.mp h).1.port
  cases hr : s.port.hwRst with
  | true =>
    rw [step_hwRst hr] at hs
    obtain rfl : Machine.nextPort (Machine.hwReset s) = t := by simpa using hs
    exact ⟨_, step_hwRst (hport ▸ hr), by rw [h.hwReset_eq]; exact LiveEq.refl _⟩
  | false =>
    obtain ⟨u, hm, rfl⟩ := step_move hs hr
    obtain ⟨u', hm', hlive⟩ := hm.liveEq h
    exact ⟨_, hm'.step_eq (hport ▸ hr), hlive.nextPort⟩

theorem LiveEq.step_fault {s s' : State} {f : Fault} (h : LiveEq s s') (hs : step s = .fault f) :
    step s' = .fault f := by
  obtain ⟨ho, hw⟩ := liveEq_iff.mp h
  rw [step_fault_iff] at hs ⊢
  rwa [← ho.cfg, ← ho.port, ← hw.upc, ← hw.ph]

/-- Settles O37: a simulation of states that agree on the live part, move by move; in IDLE, where the reset state
stands, no working register is live. -/
theorem unspecifiedRegistersNeverShow : Obligations.UnspecifiedRegistersNeverShow := by
  refine ⟨fun s s' h => ⟨fun _ => h.step_next, fun _ => h.step_fault⟩, ?_⟩
  intro opr att len tot off cl dly idr sr d b f
  exact liveEq_of_idle (by constructor <;> rfl) rfl rfl rfl

/-! ### The registers and the events that write them (10_state.md R22 to R33) -/

theorem Write.cfg_eq {s u : State} (hw : Write s u) : u.cfg = s.cfg := by
  cases hw <;> next h => exact h.cfg

theorem Write.idr_ne {s u : State} (hw : Write s u) (hne : u.idr ≠ s.idr) :
    s.upc = .rst5 ∧ s.ph = .wait ∧ ∃ b, s.port.rsp = some (.ok b) ∧ u.idr = readWord .readIdcode b := by
  cases hw
  case identity b hu hp hr h => exact ⟨hu, hp, b, hr, h.idr⟩
  all_goals next h => exact absurd h.idr hne

/-- SR and the three flags are those of `s`. -/
abbrev SameStatus (s u : State) : Prop :=
  u.sr = s.sr ∧ u.doneF = s.doneF ∧ u.busyF = s.busyF ∧ u.failF = s.failF

theorem SameData.status {s u : State} (h : SameData s u) : SameStatus s u :=
  ⟨h.sr, h.doneF, h.busyF, h.failF⟩

theorem Write.status_cases {s u : State} (hw : Write s u) :
    SameStatus s u ∨
      (s.upc = .upl4 ∧ s.ph = .wait ∧
        ∃ b, s.port.rsp = some (.ok b) ∧ u.sr = readWord .lscReadStatus b ∧ FlagsDecoded u) := by
  cases hw
  case status b hu hp hr h =>
    refine .inr ⟨hu, hp, b, hr, h.sr, ?_⟩
    rw [FlagsDecoded, h.doneF, h.busyF, h.failF, h.sr, h.cfg]
    rfl
  all_goals next h => exact .inl h.status

theorem Write.rstl_ne {s u : State} (hw : Write s u) (hne : u.rstl ≠ s.rstl) :
    (s.upc = .rst0 ∧ u.rstl = true) ∨ (s.upc = .rst2 ∧ u.rstl = false) ∨
      (s.upc = .rst1 ∧ s.ph = .wait ∧ s.cfg.rstOnAbort = .release ∧ u.rstl = false ∧
        ∃ code, s.port.rsp = some (.err code)) := by
  cases hw
  case lineUp hu h => exact .inl ⟨hu, h.rstl⟩
  case lineDown hu h => exact .inr (.inl ⟨hu, h.rstl⟩)
  case error code hp hr h =>
    have hline : u.rstl = if s.upc = .rst1 ∧ s.cfg.rstOnAbort = .release then false else s.rstl := h.rstl
    by_cases ha : s.upc = .rst1 ∧ s.cfg.rstOnAbort = .release
    · exact .inr (.inr ⟨ha.1, hp, ha.2, by rw [hline, if_pos ha], code, hr⟩)
    · exact absurd (by rw [hline, if_neg ha]) hne
  all_goals next h => exact absurd h.rstl hne

theorem Write.loaded_ne {s u : State} (hw : Write s u) (hne : u.loaded ≠ s.loaded) :
    (s.upc = .rst0 ∧ u.loaded = false) ∨ (s.upc = .fin1 ∧ u.loaded = true) := by
  cases hw
  case lineUp hu h => exact .inl ⟨hu, h.loaded⟩
  case complete hu h => exact .inr ⟨hu, h.loaded⟩
  all_goals next h => exact absurd h.loaded hne

theorem Write.upload_cases {s u : State} (hw : Write s u) :
    (u.len = s.len ∧ u.tot = s.tot) ∨
      (s.upc = .idle ∧ s.port.op = 3 ∧ u.len = portLen s ∧ u.tot = portLen s + s.cfg.prefixLen) := by
  cases hw
  case upload hu hop h => exact .inr ⟨hu, hop, h.len, h.tot⟩
  all_goals next h => exact .inl ⟨h.len, h.tot⟩

theorem Write.chunk_cases {s u : State} (hw : Write s u) :
    (u.off = s.off ∧ u.cl = s.cl) ∨ (s.upc = .upl3 ∧ s.ph = .issue) := by
  cases hw
  case burst hu hp h => exact .inr ⟨hu, hp⟩
  all_goals next h => exact .inl ⟨h.off, h.cl⟩

theorem Write.dly_ne {s u : State} (hw : Write s u) (hne : u.dly ≠ s.dly) :
    ∃ n, s.upc.delay? s.cfg = some n ∧
      ((s.ph = .issue ∧ u.dly = n) ∨ (s.ph = .wait ∧ s.port.tick = true ∧ u.dly + 1 = s.dly)) := by
  cases hw
  case load n hn hp h => exact ⟨n, hn, .inl ⟨hp, h.dly⟩⟩
  case tick n hn hp h0 ht h =>
    have hdly : u.dly = s.dly - 1 := h.dly
    exact ⟨n, hn, .inr ⟨hp, ht, by omega⟩⟩
  all_goals next h => exact absurd h.dly hne

theorem Transfer.opr_ne {s u : State} (ht : Transfer s u) (hne : u.opr ≠ s.opr) :
    s.upc = .idle ∧ u.opr = s.port.op := by
  cases ht with
  | accepted hidle _ _ hopr => exact ⟨hidle, hopr⟩
  | reserved hidle hupc hopr => exact ⟨hidle, hopr⟩
  | kept _ hop | next _ _ hop | ended _ _ hop | toErase _ _ _ hop => exact absurd hop.opr hne
  | retried _ _ _ _ hopr | exhausted _ _ _ hopr => exact absurd hopr hne

/-- In RST an error is one of the Transport or of the identity check. -/
theorem ErrorArises.cases_inRst {s : State} (h : ErrorArises s) (hin : s.upc.inRst = true) :
    (s.ph = .wait ∧ s.upc.cmd?.isSome = true ∧ ∃ code, s.port.rsp = some (.err code)) ∨
      (s.upc = .rst6 ∧ s.ph = .issue ∧ s.idr ≠ s.cfg.expectedIdcode) := by
  cases h with
  | transport code hc hp hr => exact .inl ⟨hp, hc, code, hr⟩
  | identity hu hp hne => exact .inr ⟨hu, hp, hne⟩
  | noBuffer hu | notDone hu => simp [hu, Upc.inRst] at hin

theorem Transfer.att_ne {s u : State} (ht : Transfer s u) (hne : u.att ≠ s.att) :
    (s.upc = .idle ∧ u.att = 0) ∨
      ((s.opr = 5 ∨ s.opr = 6) ∧ s.upc.inRst = true ∧ u.att = s.att + 1 ∧
        ((s.ph = .wait ∧ s.upc.cmd?.isSome = true ∧ ∃ code, s.port.rsp = some (.err code)) ∨
          (s.upc = .rst6 ∧ s.ph = .issue ∧ s.idr ≠ s.cfg.expectedIdcode))) := by
  cases ht with
  | accepted hidle _ _ _ hatt | reserved hidle _ _ hatt => exact .inl ⟨hidle, hatt⟩
  | kept _ hop | next _ _ hop | ended _ _ hop | toErase _ _ _ hop => exact absurd hop.att hne
  | retried herr hretries _ _ _ hatt | exhausted herr hretries _ _ hatt =>
    obtain ⟨hopr, hin⟩ := (retries_iff s).mp hretries
    exact .inr ⟨hopr, hin, hatt, herr.cases_inRst hin⟩

theorem Transfer.result_cases {s u : State} (ht : Transfer s u) :
    (u.resCode = s.resCode ∧ u.resDetail = s.resDetail) ∨ (u.upc = .idle ∧ u.resValid = true) := by
  cases ht with
  | accepted _ _ _ _ _ _ hcode hdetail => exact .inl ⟨hcode, hdetail⟩
  | reserved _ hupc _ _ hvalid | ended _ hupc _ hvalid | exhausted _ _ hupc _ _ hvalid => exact .inr ⟨hupc, hvalid⟩
  | kept _ _ hres | next _ _ _ hres | toErase _ _ _ _ hres | retried _ _ _ _ _ _ hres =>
    exact .inl ⟨hres.code, hres.detail⟩

theorem Transfer.resValid_cases {s u : State} (ht : Transfer s u) :
    u.resValid = s.resValid ∨ (s.upc = .idle ∧ u.upc ≠ .idle ∧ u.resValid = false) ∨
      (u.upc = .idle ∧ u.resValid = true) := by
  cases ht with
  | accepted hidle h7 hupc _ _ hvalid =>
    exact .inr (.inl ⟨hidle, hupc ▸ mt (routineEntry_eq_idle_iff _).mp h7, hvalid⟩)
  | reserved _ hupc _ _ hvalid | ended _ hupc _ hvalid | exhausted _ _ hupc _ _ hvalid =>
    exact .inr (.inr ⟨hupc, hvalid⟩)
  | kept _ _ hres | next _ _ _ hres | toErase _ _ _ _ hres | retried _ _ _ _ _ _ hres => exact .inl hres.valid

theorem sameMachine_nextPort (s : State) : SameMachine s (nextPort s) := by
  unfold SameMachine nextPort
  split <;> rfl

/-- Nothing is written while the idle block waits. -/
theorem sameMachine_of_idle {s t : State} (hr : s.port.hwRst = false) (hs : step s = .next t) (hu : s.upc = .idle)
    (hv : s.port.opValid = false) : SameMachine s t := by
  obtain rfl : nextPort s = t := by simpa [step_at_idle hr hu, hv] using hs
  exact sameMachine_nextPort s

/-- Settles O50: control and result registers by the transfers, the others by the writes. -/
theorem registersAreWrittenWhereNamed : Obligations.RegistersAreWrittenWhereNamed := by
  intro s t hr hs
  have hidle := sameMachine_of_idle hr hs
  obtain ⟨u, hm, rfl⟩ := step_move hs hr
  have ht := hm.transfer
  have hw := hm.write
  simp only [FlagsDecoded, nextPort_cfg, nextPort_upc, nextPort_opr, nextPort_att, nextPort_len, nextPort_tot,
    nextPort_off, nextPort_cl, nextPort_dly, nextPort_idr, nextPort_sr, nextPort_doneF, nextPort_busyF, nextPort_failF, nextPort_rstl,
    nextPort_resValid, nextPort_resCode, nextPort_resDetail, nextPort_loaded]
  refine ⟨hw.cfg_eq, hw.idr_ne, hw.status_cases.resolve_left, hw.rstl_ne, hw.loaded_ne, hidle, ht.opr_ne, ht.att_ne,
    fun hne => ?_, hw.chunk_cases.resolve_left, hw.dly_ne, ht.result_cases.resolve_left,
    ht.resValid_cases.resolve_left⟩
  obtain ⟨hu, hop, hlen, -⟩ := hw.upload_cases.resolve_left hne
  exact ⟨hu, hop, hlen⟩

/-! ### The ghost PHASE (10_state.md R37) -/

/-- The events that advance PHASE, and the value each gives it. -/
inductive Advances (s : State) : Phase → Prop
  | identified (hu : s.upc = .rst6) (hid : s.idr = s.cfg.expectedIdcode) : Advances s .identified
  | erased (hu : s.upc = .ers4) : Advances s .erased
  | streaming (hu : s.upc = .upl0) (hp : s.ph = .issue) : Advances s .streaming
  | verified (hu : s.upc = .upl5) (hd : s.doneF = true) : Advances s .verified
  | complete (hu : s.upc = .fin1) : Advances s .complete

/-- What a step can do to PHASE: begin a run, advance where it is not FAILED, or fail. -/
inductive PhaseMove (s u : State) : Prop
  | same (h : u.phase = s.phase)
  | reset (hu : s.upc = .rst0) (h : u.phase = .resetPending)
  | advanced (hf : s.phase ≠ .failed) (ha : Advances s u.phase)
  | failed (herr : ErrorArises s) (h : u.phase = .failed)

theorem Advances.phaseMove {s u : State} {p : Phase} (ha : Advances s p)
    (hu : u.phase = if s.phase = .failed then .failed else p) : PhaseMove s u := by
  by_cases hf : s.phase = .failed
  · exact .same (by rw [hu, if_pos hf, hf])
  · rw [if_neg hf] at hu
    exact .advanced hf (hu ▸ ha)

theorem Move.phaseMove {s u : State} (hm : Move s u) : PhaseMove s u := by
  cases hm with
  | accepted u hu hv he =>
    obtain rfl := eq_acceptOp hu he
    refine .same ?_
    unfold acceptOp
    split <;> rfl
  | initIssued hu hp => exact (Advances.streaming hu hp).phaseMove rfl
  | failed c code hc hp hrsp => exact .failed (.transport code (by rw [hc]; rfl) hp hrsp) (raiseTransport_phase _ _)
  | lineUp hu => exact .reset hu rfl
  | idChecked hu hp =>
    unfold microRst6
    split
    · next hid => exact (Advances.identified hu hid).phaseMove (retOk_phase _)
    · next hne => exact .failed (.identity hu hp hne) (raiseError_phase _ _ _)
  | eraseEnded hu => exact (Advances.erased hu).phaseMove (retOk_phase _)
  | drawn hu =>
    unfold microUpl2
    split
    · exact .same rfl
    · next ha => exact .failed (.noBuffer hu (by simpa using ha)) (raiseError_phase _ _ _)
  | doneChecked hu =>
    unfold microUpl5
    split
    · next hd => exact (Advances.verified hu hd).phaseMove (retOk_phase _)
    · next hd => exact .failed (.notDone hu (by simpa using hd)) (raiseError_phase _ _ _)
  | finalEnded hu => exact (Advances.complete hu).phaseMove (retOk_phase _)
  | stay | issued | idIssued | statusIssued | burstIssued | wrote | idRead | statusRead | delayLoaded | ticked
  | delayDone | lineDown | queried => exact .same rfl

/-- Settles O51: each change of PHASE is one of the four kinds. -/
theorem phaseChangesAsListed : Obligations.PhaseChangesAsListed := by
  intro s t hr hs hne
  obtain ⟨u, hm, rfl⟩ := step_move hs hr
  rw [nextPort_phase] at hne ⊢
  cases hm.phaseMove with
  | same h => exact absurd h hne
  | reset hu h => exact ⟨fun _ => hu, .inl ⟨hu, h⟩⟩
  | advanced hf ha =>
    refine ⟨fun h => absurd h hf, .inr ?_⟩
    generalize u.phase = p at ha
    cases ha with
    | identified hu hid => exact .inl ⟨hu, hid, rfl⟩
    | erased hu => exact .inr (.inl ⟨hu, rfl⟩)
    | streaming hu hp => exact .inr (.inr (.inl ⟨hu, hp, rfl⟩))
    | verified hu hd => exact .inr (.inr (.inr (.inl ⟨hu, hd, rfl⟩)))
    | complete hu => exact .inr (.inr (.inr (.inr (.inl ⟨hu, rfl⟩))))
  | failed herr h =>
    refine ⟨fun hf => absurd (h.trans hf.symm) hne, .inr (.inr (.inr (.inr (.inr (.inr ⟨h, ?_⟩)))))⟩
    cases herr with
    | transport code hc hp hrsp => exact .inl ⟨hp, hc, code, hrsp⟩
    | identity hu _ hid => exact .inr (.inl ⟨hu, hid⟩)
    | notDone hu hd => exact .inr (.inr (.inl ⟨hu, hd⟩))
    | noBuffer hu ha => exact .inr (.inr (.inr ⟨hu, ha⟩))

/-! ### Invariants -/

/-- Every step is `hw_rst` or a `Move`. -/
theorem step_reset_or_move {s t : State} (hs : step s = .next t) :
    t = nextPort (hwReset s) ∨ ∃ u, Move s u ∧ t = nextPort u := by
  cases hr : s.port.hwRst with
  | true => exact .inl (by simpa [step_hwRst hr] using hs.symm)
  | false => exact .inr (step_move hs hr)

/-- A predicate that the inputs do not enter is kept by every step if reset meets it and every `Move` keeps it. -/
theorem step_keeps {I : State → Prop} (hport : ∀ s, I s → I (nextPort s)) (hreset : ∀ s, I s → I (hwReset s))
    (hmove : ∀ s u, I s → Move s u → I u) (s t : State) (h : I s) (hs : step s = .next t) : I t := by
  rcases step_reset_or_move hs with rfl | ⟨u, hm, rfl⟩
  · exact hport _ (hreset s h)
  · exact hport _ (hmove s u h hm)

/-! #### UPC, PH, XFQ and RES_VALID (10_state.md R21, R30, R32) -/

theorem controlInv_of_issue {u : State} (hp : u.ph = .issue) (hx : u.xfq = none)
    (hv : u.upc ≠ .idle → u.resValid = false) : ControlInv u :=
  ⟨fun _ => hp, by simp [hp], by simp [hp, hx], hv⟩

/-- A running operation has no result yet; its end and its acceptance write RES_VALID. -/
theorem Transfer.resValid_of_running {s u : State} (ht : Transfer s u) (h : s.upc ≠ .idle → s.resValid = false)
    (hu : u.upc ≠ .idle) : u.resValid = false := by
  cases ht with
  | kept hupc _ hres => rw [hres.valid, h (hupc ▸ hu)]
  | next hrun _ _ hres => rw [hres.valid, h hrun]
  | accepted _ _ _ _ _ hvalid => exact hvalid
  | reserved _ hupc | ended _ hupc | exhausted _ _ hupc => exact absurd hupc hu
  | toErase hat _ _ _ hres => rw [hres.valid, h (by simp [hat])]
  | retried _ hretries _ _ _ _ hres =>
    rw [hres.valid, h (Upc.ne_idle_of_inRst ((retries_iff s).mp hretries).2)]

theorem controlInv_of_request {u : State} (hc : u.upc.cmd?.isSome = true) (hp : u.ph = .wait)
    (hx : u.xfq.isSome = true) (hv : u.upc ≠ .idle → u.resValid = false) : ControlInv u :=
  ⟨fun hu => by simp [hu, Upc.cmd?] at hc, fun _ => .inl hc, by simp [hp, hc, hx], hv⟩

theorem controlInv_of_delay {u : State} {n : Nat} (hn : u.upc.delay? u.cfg = some n) (hx : u.xfq = none)
    (hv : u.upc ≠ .idle → u.resValid = false) : ControlInv u :=
  ⟨fun hu => by simp [hu, Upc.delay?] at hn, fun _ => .inr (by rw [hn]; rfl),
    by simp [hx, Upc.cmd?_of_delay? hn], hv⟩

theorem ControlInv.xfq_of_issue {s : State} (h : ControlInv s) (hp : s.ph = .issue) : s.xfq = none := by
  obtain ⟨-, -, hxfq, -⟩ := h
  simpa [hp] using hxfq

theorem ControlInv.xfq_of_internal {s : State} (h : ControlInv s) (hc : s.upc.cmd? = none) : s.xfq = none := by
  obtain ⟨-, -, hxfq, -⟩ := h
  simpa [hc] using hxfq

@[simp] theorem acceptOp_ph (op : BitVec 3) (n : Nat) (s : State) : (acceptOp op n s).ph = .issue := by
  unfold acceptOp
  split <;> rfl

theorem acceptOp_xfq {s : State} (h : s.xfq = none) (op : BitVec 3) (n : Nat) : (acceptOp op n s).xfq = none := by
  unfold acceptOp
  split
  · rfl
  · exact h

theorem retOk_xfq {s : State} (h : s.xfq = none) : (retOk s).xfq = none := by
  unfold retOk
  split
  · exact h
  · rfl

@[simp] theorem microRst6_ph (s : State) : (microRst6 s).ph = .issue := by
  unfold microRst6
  split
  · exact retOk_ph _
  · exact raiseError_ph _ _ _

@[simp] theorem microUpl2_ph (s : State) : (microUpl2 s).ph = .issue := by
  unfold microUpl2
  split
  · rfl
  · exact raiseError_ph _ _ _

@[simp] theorem microUpl5_ph (s : State) : (microUpl5 s).ph = .issue := by
  unfold microUpl5
  split
  · exact retOk_ph _
  · exact raiseError_ph _ _ _

theorem microRst6_xfq {s : State} (h : s.xfq = none) : (microRst6 s).xfq = none := by
  unfold microRst6
  split
  · exact retOk_xfq h
  · exact raiseError_xfq _ _ _

theorem microUpl2_xfq {s : State} (h : s.xfq = none) : (microUpl2 s).xfq = none := by
  unfold microUpl2
  split
  · exact h
  · exact raiseError_xfq _ _ _

theorem microUpl5_xfq {s : State} (h : s.xfq = none) : (microUpl5 s).xfq = none := by
  unfold microUpl5
  split
  · exact retOk_xfq h
  · exact raiseError_xfq _ _ _

theorem Move.controlInv {s u : State} (h : ControlInv s) (hm : Move s u) : ControlInv u := by
  obtain ⟨hidle, -, -, hvalid⟩ := id h
  have hv := hm.transfer.resValid_of_running hvalid
  have hissue := h.xfq_of_issue
  cases hm with
  | stay => exact h
  | accepted u hu hv' he =>
    obtain rfl := eq_acceptOp hu he
    exact controlInv_of_issue (acceptOp_ph _ _ _) (acceptOp_xfq (hissue (hidle hu)) _ _) hv
  | issued c hc => exact controlInv_of_request (by simp [hc]) rfl rfl hv
  | initIssued hu | idIssued hu | statusIssued hu | burstIssued hu =>
    exact controlInv_of_request (by simp [hu, Upc.cmd?]) rfl rfl hv
  | failed c code hc => exact controlInv_of_issue (raiseTransport_ph _ _) (raiseError_xfq _ _ _) hv
  | wrote | idRead | statusRead => exact controlInv_of_issue rfl rfl hv
  | delayLoaded n hn hp => exact controlInv_of_delay hn (hissue hp) hv
  | ticked n hn => exact controlInv_of_delay hn (h.xfq_of_internal (Upc.cmd?_of_delay? hn)) hv
  | delayDone n hn => exact controlInv_of_issue rfl (h.xfq_of_internal (Upc.cmd?_of_delay? hn)) hv
  | lineUp _ hp | lineDown _ hp => exact controlInv_of_issue rfl (hissue hp) hv
  | idChecked _ hp => exact controlInv_of_issue (microRst6_ph s) (microRst6_xfq (hissue hp)) hv
  | drawn _ hp => exact controlInv_of_issue (microUpl2_ph s) (microUpl2_xfq (hissue hp)) hv
  | doneChecked _ hp => exact controlInv_of_issue (microUpl5_ph s) (microUpl5_xfq (hissue hp)) hv
  | eraseEnded _ hp | finalEnded _ hp => exact controlInv_of_issue (retOk_ph _) (retOk_xfq (hissue hp)) hv
  | queried => exact controlInv_of_issue rfl rfl hv

/-- Settles O53: a request is pending exactly while its response is awaited, and `Transfer` gives RES_VALID. -/
theorem stepKeepsControlInv : Obligations.StepKeepsControlInv :=
  step_keeps (fun s h => by simpa [ControlInv] using h)
    (fun _ _ => controlInv_of_issue rfl rfl (fun hne => absurd rfl hne)) (fun _ _ => Move.controlInv)

/-! #### OPR and ATT (10_state.md R22, R23, 45_retry.md R257) -/

theorem mem_runBy_idle (op : BitVec 3) : op ∈ Upc.idle.runBy := by
  revert op
  decide

/-- A routine is run to its end by the operations that run its beginning. -/
theorem runBy_next {u : Upc} (h : u.next ≠ .idle) : u.next.runBy = u.runBy := by
  revert h
  cases u <;> decide

theorem mem_runBy_next {op : BitVec 3} {u : Upc} (h : op ∈ u.runBy) : op ∈ u.next.runBy := by
  by_cases hu : u.next = .idle
  · rw [hu]
    exact mem_runBy_idle op
  · rwa [runBy_next hu]

theorem Transfer.retryInv {s u : State} (ht : Transfer s u) (hcfg : u.cfg = s.cfg) (h : RetryInv s) : RetryInv u := by
  obtain ⟨hok, hruns, hended, hbelow, hzero⟩ := h
  have hpos : 0 < s.cfg.maxResetAttempts := of_decide_eq_true hok
  rw [RetryInv, hcfg]
  refine ⟨hok, ?_⟩
  cases ht with
  | kept hupc hop hres =>
    rw [hupc, hop.opr, hop.att, hres.valid]
    exact ⟨hruns, hended, hbelow, hzero⟩
  | next hrun hupc hop hres =>
    rw [hupc, hop.opr, hop.att, hres.valid]
    exact ⟨mem_runBy_next hruns, hended, fun _ => hbelow hrun, fun _ => hzero hrun⟩
  | accepted _ _ hupc hopr hatt =>
    rw [hupc, hopr, hatt]
    exact ⟨mem_runBy_routineEntry _, fun _ => hpos.le, fun _ => hpos, fun _ _ _ => rfl⟩
  | reserved _ hupc _ hatt =>
    rw [hupc, hatt]
    exact ⟨mem_runBy_idle _, fun _ => hpos.le, fun _ => hpos, fun _ _ _ => rfl⟩
  | ended hrun hupc hop =>
    rw [hupc, hop.att]
    exact ⟨mem_runBy_idle _, fun _ => (hbelow hrun).le, fun _ => hbelow hrun, fun hne => absurd rfl hne⟩
  | toErase hat h6 hupc hop hres =>
    have hrun : s.upc ≠ .idle := by simp [hat]
    rw [hupc, hop.opr, hop.att, hres.valid, h6]
    exact ⟨by decide, hended, fun _ => hbelow hrun, fun _ _ hne => absurd rfl hne⟩
  | retried _ hretries hbound hupc hopr hatt =>
    have hwrapped := ((retries_iff s).mp hretries).1
    rw [hupc, hopr, hatt]
    refine ⟨?_, fun _ => hbound.le, fun _ => hbound, fun _ h5 h6 => (hwrapped.elim h5 h6).elim⟩
    rcases hwrapped with h5 | h6
    · rw [h5]; decide
    · rw [h6]; decide
  | exhausted _ hretries hupc _ hatt =>
    have hlt := hbelow (Upc.ne_idle_of_inRst ((retries_iff s).mp hretries).2)
    rw [hupc, hatt]
    exact ⟨mem_runBy_idle _, fun _ => hlt, fun hne => absurd rfl hne, fun hne => absurd rfl hne⟩

/-- `hw_rst` leaves IDLE without a result, so nothing is asked of ATT. -/
theorem retryInv_hwReset {s : State} (h : RetryInv s) : RetryInv (hwReset s) :=
  have ⟨hok, _⟩ := h
  ⟨hok, mem_runBy_idle _, nofun, fun hne => absurd rfl hne, fun hne => absurd rfl hne⟩

/-- Settles O54: each kind of transfer keeps OPR with the routine and counts ATT below the bound. -/
theorem stepKeepsRetryInv : Obligations.StepKeepsRetryInv :=
  step_keeps (fun s h => by simpa [RetryInv] using h) (fun _ => retryInv_hwReset)
    (fun _ _ h hm => hm.transfer.retryInv hm.write.cfg_eq h)

/-! #### The derived registers (10_state.md R24, R26, R29) -/

theorem Write.flagsDecoded {s u : State} (hw : Write s u) (h : FlagsDecoded s) : FlagsDecoded u := by
  rcases hw.status_cases with ⟨hsr, hd, hb, hf⟩ | ⟨-, -, b, -, -, hdec⟩
  · rw [FlagsDecoded, hsr, hd, hb, hf, hw.cfg_eq]
    exact h
  · exact hdec

/-- UPL5 is entered from UPL4 alone. -/
theorem Transfer.of_upl5 {s u : State} (ht : Transfer s u) (hu : u.upc = .upl5) :
    s.upc = .upl5 ∨ s.upc = .upl4 := by
  cases ht with
  | kept hupc => exact .inl (hupc.symm.trans hu)
  | next _ hupc => exact .inr (Upc.eq_upl4_of_next (hupc.symm.trans hu))
  | accepted _ _ hupc => exact absurd (hupc.symm.trans hu) (routineEntry_ne_checks _).2
  | reserved _ hupc | ended _ hupc | toErase _ _ hupc | retried _ _ _ hupc | exhausted _ _ hupc => simp [hu] at hupc

theorem raiseError_upc (e : ResCode) (d : Word) (s : State) :
    (raiseError e d s).upc = .rst0 ∨ (raiseError e d s).upc = .idle := by
  rcases raiseError_cases e d s with ⟨-, -, he⟩ | ⟨-, -, he⟩ | ⟨-, he⟩ <;> simp [he]

/-- UPL4 goes on to UPL5 when the status has been read, and only then. -/
theorem Move.flagsDecoded_of_upl4 {s u : State} (hm : Move s u) (h4 : s.upc = .upl4) (hu : u.upc = .upl5) :
    FlagsDecoded u := by
  cases hm with
  | statusRead => rfl
  | wrote c hc _ _ hk => exact absurd h4 (sender_of_write hc hk).2
  | failed c code =>
    rcases raiseError_upc _ _ (answeredByError s) with he | he <;> exact absurd (he.symm.trans hu) nofun
  | stay | issued | statusIssued => simp [h4] at hu
  | delayLoaded _ hn | ticked _ hn | delayDone _ hn => simp [h4, Upc.delay?] at hn
  | accepted _ hat | initIssued hat | idIssued hat | burstIssued hat | idRead _ hat | lineUp hat | lineDown hat
  | idChecked hat | eraseEnded hat | drawn hat | doneChecked hat | finalEnded hat | queried hat => simp [h4] at hat

theorem Move.flagsDecoded_of_upl5 {s u : State} (hm : Move s u) (h : s.upc = .upl5 → FlagsDecoded s)
    (hu : u.upc = .upl5) : FlagsDecoded u := by
  rcases hm.transfer.of_upl5 hu with h5 | h4
  · exact hm.write.flagsDecoded (h h5)
  · exact hm.flagsDecoded_of_upl4 h4 hu

/-- From IDLE a step stays or accepts. -/
theorem Move.of_idle {s u : State} (hm : Move s u) (hu : s.upc = .idle) :
    u = s ∨ u = acceptOp s.port.op (portLen s) s := by
  cases hm with
  | stay => exact .inl rfl
  | accepted u _ _ he => exact .inr (eq_acceptOp hu he)
  | issued _ hc | failed _ _ hc | wrote _ hc => simp [hu, Upc.cmd?] at hc
  | delayLoaded _ hn | ticked _ hn | delayDone _ hn => simp [hu, Upc.delay?] at hn
  | initIssued hat | idIssued hat | statusIssued hat | burstIssued hat | idRead _ hat | statusRead _ hat | lineUp hat
  | lineDown hat | idChecked hat | eraseEnded hat | drawn hat | doneChecked hat | finalEnded hat | queried hat =>
    simp [hu] at hat

/-- Within a running operation UPL is entered from UPL alone. -/
theorem Transfer.of_inUpl {s u : State} (ht : Transfer s u) (hrun : s.upc ≠ .idle) (hu : u.upc.inUpl = true) :
    s.upc.inUpl = true := by
  cases ht with
  | kept hupc => rwa [← hupc]
  | next _ hupc => exact Upc.inUpl_of_next (hupc ▸ hu)
  | accepted hidle | reserved hidle => exact absurd hidle hrun
  | ended _ hupc | toErase _ _ hupc | retried _ _ _ hupc | exhausted _ _ hupc => simp [hupc, Upc.inUpl] at hu

/-- LEN has LEN_W bits and TOT is LEN + PREFIX_LEN. -/
abbrev Latched (s : State) : Prop :=
  s.len < 2 ^ s.cfg.lenW ∧ s.tot = s.len + s.cfg.prefixLen

theorem portLen_lt (s : State) : portLen s < 2 ^ s.cfg.lenW :=
  Nat.mod_lt _ (Nat.two_pow_pos _)

@[simp] theorem acceptOp_upc (op : BitVec 3) (n : Nat) (s : State) : (acceptOp op n s).upc = routineEntry op := by
  unfold acceptOp
  split
  · next h7 => exact ((routineEntry_eq_idle_iff op).mpr h7).symm
  · rfl

theorem latched_acceptOp {s : State} (h : (acceptOp s.port.op (portLen s) s).upc.inUpl = true) :
    Latched (acceptOp s.port.op (portLen s) s) := by
  have h3 : s.port.op = 3 := (inUpl_routineEntry_iff _).mp (by simpa using h)
  simpa [Latched, acceptOp, h3] using portLen_lt s

theorem Move.latched {s u : State} (hm : Move s u) (h : s.upc.inUpl = true → Latched s) (hu : u.upc.inUpl = true) :
    Latched u := by
  by_cases hidle : s.upc = .idle
  · rcases hm.of_idle hidle with rfl | rfl
    · exact h hu
    · exact latched_acceptOp hu
  · obtain ⟨hlen, htot⟩ := hm.write.upload_cases.resolve_right (fun hup => hidle hup.1)
    rw [Latched, hlen, htot, hm.write.cfg_eq]
    exact h (hm.transfer.of_inUpl hidle hu)

/-- A counter that a DELAY has loaded only falls. -/
theorem Move.dly_le {s u : State} (hm : Move s u) (h : ∀ n, s.upc.delay? s.cfg = some n → s.ph = .wait → s.dly ≤ n)
    (n : Nat) (hn : u.upc.delay? u.cfg = some n) (hp : u.ph = .wait) : u.dly ≤ n := by
  cases hm with
  | stay => exact h n hn hp
  | delayLoaded m hload => exact (Option.some.inj (hload.symm.trans hn)).le
  | ticked m _ hw => exact (Nat.sub_le _ _).trans (h n hn hw)
  | issued c hc => simp [Upc.delay?_of_cmd? hc] at hn
  | initIssued hat | idIssued hat | statusIssued hat | burstIssued hat => simp [hat, Upc.delay?] at hn
  | accepted u hu _ he => simp [eq_acceptOp hu he] at hp
  | failed | wrote | idRead | statusRead | delayDone | lineUp | lineDown | idChecked | drawn | doneChecked | eraseEnded
  | finalEnded | queried =>
    exact absurd hp (by simp [microRst0, microRst2, microErs4, microFin1, microQry0, endOk])

/-- Settles O56: each register is followed to where it is live, and nothing but a status read touches SR or a flag. -/
theorem stepKeepsRegisterInv : Obligations.StepKeepsRegisterInv := by
  constructor
  · refine step_keeps (fun s h => by simpa [RegisterInv, FlagsDecoded] using h)
      (fun _ _ => ⟨nofun, nofun, fun _ => nofun⟩) ?_
    rintro s u ⟨hflags, hlatched, hdly⟩ hm
    exact ⟨hm.flagsDecoded_of_upl5 hflags, hm.latched hlatched, hm.dly_le hdly⟩
  · intro s t hr hflags hs
    obtain ⟨u, hm, rfl⟩ := step_move hs hr
    simpa [FlagsDecoded] using hm.write.flagsDecoded hflags

/-! #### The state after reset (10_state.md R39) -/

/-- Settles O36: the values are those of the definition, and no operation is on the port. -/
theorem resetStateValues : Obligations.ResetStateValues := by
  refine ⟨rfl, rfl, rfl, rfl, rfl, rfl, rfl, rfl, rfl, ?_⟩
  simp [fetchBytes, State.reset, Ports.atReset]

/-- Settles O58: IDLE without request or result asks nothing of a working register; the parameters meet R7 (O7). -/
theorem resetMeetsTheInvariants : Obligations.ResetMeetsTheInvariants := by
  obtain ⟨hwf, hwhole⟩ := hardwareParametersAdmitted
  exact ⟨controlInv_of_issue rfl rfl nofun, ⟨by decide, mem_runBy_idle _, nofun, nofun, nofun⟩, ⟨nofun, nofun, nofun⟩,
    ⟨nofun, nofun, nofun⟩, ⟨hwf, hwhole, nofun, nofun⟩, Memory.wf_reset⟩

end Sys2Proof.Machine

/-! PROOFS. The statements of 20_memory.md: the image (R62), the spaces that no instruction writes (R60 to R62), the
shapes of requests (R66) and the Transport's duty of length (R68). -/

namespace Sys2Proof.Machine

/-! ### The image (20_memory.md R62) -/

/-- Loading from `a` on leaves every address below `a` alone. -/
theorem Memory.read_load_below (bs : List Byte) {m : Memory} {a k : Nat} (hk : k < a) :
    Memory.read (Memory.load m a bs) k = Memory.read m k := by
  induction bs generalizing m a with
  | nil => rfl
  | cons b bs ih => rw [Memory.load, ih (by omega), Memory.read_write_other b (by omega)]

/-- What is loaded from `a` on reads back; the first byte, because the bytes after it go to higher addresses. -/
theorem Memory.read_load {bs : List Byte} {m : Memory} {a k : Nat} (hm : m.wf = true) (hk : k < bs.length) :
    Memory.read (Memory.load m a bs) (a + k) = bs[k] := by
  induction bs generalizing m a k with
  | nil => simp at hk
  | cons b bs ih =>
    rw [Memory.load]
    cases k with
    | zero =>
      rw [Memory.read_load_below bs (by omega), Nat.add_zero, Memory.read_write_same b hm, List.getElem_cons_zero]
    | succ k =>
      rw [show a + (k + 1) = a + 1 + k by omega, ih (Memory.wf_write b hm) (by simpa using hk),
        List.getElem_cons_succ]

/-- Settles O8: the load from address 0 of the empty memory. -/
theorem imageReadsAsLoaded : Obligations.ImageReadsAsLoaded := by
  intro bs k hk
  simpa using Memory.read_load (a := 0) (show Memory.wf [] = true from rfl) hk

/-! ### What no instruction writes (20_memory.md R60 to R62) -/

/-- The parameters and the inputs of `t` are those of `s`. The command ROM is among the first and the image among the
second (20_memory.md R61, R62). -/
structure SameEnv (s t : State) : Prop where
  cfg : t.cfg = s.cfg
  port : t.port = s.port
  stim : t.stim = s.stim

theorem SameEnv.refl (s : State) : SameEnv s s := ⟨rfl, rfl, rfl⟩

theorem SameEnv.trans {s t u : State} (h : SameEnv s t) (h' : SameEnv t u) : SameEnv s u :=
  ⟨h'.cfg.trans h.cfg, h'.port.trans h.port, h'.stim.trans h.stim⟩

theorem sameEnv_accept (op : BitVec 3) (entry : Upc) (s : State) : SameEnv s (accept op entry s) := by
  constructor <;> simp

theorem sameEnv_raiseTransport (code : Nat) (s : State) : SameEnv s (raiseTransport code s) := by
  constructor <;> simp

theorem sameEnv_abortLine (s : State) : SameEnv s (abortLine s) := by
  constructor <;> simp

/-- The two phases of a transport micro-operation write no input if what they are built from writes none. -/
theorem sameEnv_transact {s t : State} {onIssue : State → State} {want : Nat} {onOk : List Byte → State → State}
    {onErr : Nat → State → State} (h : transact onIssue want onOk onErr s = .next t) (hissue : SameEnv s (onIssue s))
    (hok : ∀ b v, SameEnv v (onOk b v)) (herr : ∀ code v, SameEnv v (onErr code v)) : SameEnv s t := by
  have hconsumed : SameEnv s { s with xfq := none } := ⟨rfl, rfl, rfl⟩
  rcases transact_cases h with ⟨-, rfl⟩ | ⟨-, hx⟩
  · exact hissue
  · rcases xferDone_cases hx with ⟨-, rfl⟩ | ⟨code, -, rfl⟩ | ⟨b, -, -, rfl⟩
    · exact .refl _
    · exact hconsumed.trans (herr code _)
    · exact hconsumed.trans (hok b _)

theorem sameEnv_send {s t : State} {c : Cmd} (h : send c s = .next t) : SameEnv s t :=
  sameEnv_transact h ⟨rfl, rfl, rfl⟩ (fun _ _ => ⟨rfl, rfl, rfl⟩) sameEnv_raiseTransport

theorem sameEnv_sendRecv {s t : State} {c : Cmd} {n : BitVec 16} {store : Word → State → State}
    (h : sendRecv c n store s = .next t) (hstore : ∀ w v, SameEnv v (store w v)) : SameEnv s t :=
  sameEnv_transact h ⟨rfl, rfl, rfl⟩ (fun b v => (hstore (readWord c b) v).trans ⟨rfl, rfl, rfl⟩) sameEnv_raiseTransport

/-- A command does what its micro-operation does, or nothing where that is not at UPC. -/
theorem sameEnv_atSender {s t : State} {c : Cmd} {f : State → Host.Outcome State Fault Refusal}
    (h : atSender c f s = .next t) (hf : f s = .next t → SameEnv s t) : SameEnv s t := by
  rcases atSender_cases c f s with ⟨-, he⟩ | ⟨-, he⟩ <;> rw [he] at h
  · exact hf h
  · exact Host.Outcome.next.inj h ▸ .refl s

theorem sameEnv_exec {i : Instr} {s t : State} (h : exec i s = .next t) : SameEnv s t := by
  cases i with
  | queryState | reset | prepareErase | finalize | resetRetry | writeInit =>
    exact Host.Outcome.next.inj h ▸ sameEnv_accept _ _ s
  | upload n =>
    have hlatched : SameEnv s { s with len := n, tot := n + s.cfg.prefixLen } := ⟨rfl, rfl, rfl⟩
    simp only [exec, execUpload] at h
    split at h
    · exact Host.Outcome.next.inj h ▸ hlatched.trans (sameEnv_accept _ _ _)
    · exact Host.Outcome.next.inj h ▸ .refl s
  | reserved111 =>
    simp only [exec, execReserved111] at h
    split at h
    · exact Host.Outcome.next.inj h ▸ ⟨rfl, rfl, rfl⟩
    · exact Host.Outcome.next.inj h ▸ .refl s
  | iscEnable | iscErase | iscDisable => exact sameEnv_atSender h sameEnv_send
  | activate =>
    exact sameEnv_atSender h (fun h => sameEnv_transact h ⟨rfl, rfl, rfl⟩ (fun _ _ => ⟨rfl, rfl, rfl⟩)
      (fun code v => (sameEnv_abortLine v).trans (sameEnv_raiseTransport code _)))
  | lscInit | lscBitstreamBurst =>
    exact sameEnv_atSender h
      (fun h => sameEnv_transact h ⟨rfl, rfl, rfl⟩ (fun _ _ => ⟨rfl, rfl, rfl⟩) sameEnv_raiseTransport)
  | readIdcode | lscReadStatus =>
    exact sameEnv_atSender h (fun h => sameEnv_sendRecv h (fun _ _ => ⟨rfl, rfl, rfl⟩))

/-- Settles O9: the image is on the port, and the command ROM is in the parameters. -/
theorem instructionsWriteNoMemory : Obligations.InstructionsWriteNoMemory := by
  intro i s t h
  obtain ⟨hcfg, hport, hstim⟩ := sameEnv_exec h
  exact ⟨fun a => by rw [hport], fun c => by rw [hcfg], hcfg, hport, hstim⟩

/-! ### The shapes of requests (20_memory.md R66) -/

/-- The request of the micro-operation at UPC, in one of the three shapes. -/
inductive RequestAt (s : State) : Request → Prop
  /-- WRITE(c), of a command that reads nothing and carries no image -/
  | write (c : Cmd) (hc : s.upc.cmd? = some c) (hread : c ≠ .readIdcode ∧ c ≠ .lscReadStatus)
      (hburst : c ≠ .lscBitstreamBurst) : RequestAt s (writeReq s.cfg c)
  /-- WRITE_READ(READ_IDCODE, ID_READ_LEN) -/
  | readIdentity (hu : s.upc = .rst5) : RequestAt s (writeReadReq s.cfg .readIdcode s.cfg.idReadLen)
  /-- WRITE_READ(LSC_READ_STATUS, STATUS_READ_LEN) -/
  | readStatus (hu : s.upc = .upl4) : RequestAt s (writeReadReq s.cfg .lscReadStatus s.cfg.statusReadLen)
  /-- WRITE_MULTI(W, MAX_XFER) -/
  | writeMulti (hu : s.upc = .upl3) :
      RequestAt s (chunks (logicalByte s.cfg s.port.img) s.cfg.maxXfer.toNat s.tot)

/-- The addresses that send a command alone, neither to read nor as a prefix (30_encoding.md R96, column "sent by"). -/
theorem sender_of_plain_write {u : Upc} {c : Cmd} (hc : u.cmd? = some c) (hread : c ≠ .readIdcode ∧ c ≠ .lscReadStatus)
    (hburst : c ≠ .lscBitstreamBurst) :
    (u = .rst1 ∧ c = .activate) ∨ (u = .rst4 ∧ c = .iscEnable) ∨ (u = .ers0 ∧ c = .iscEnable) ∨
      (u = .ers2 ∧ c = .iscErase) ∨ (u = .upl0 ∧ c = .lscInit) ∨ (u = .fin0 ∧ c = .iscDisable) := by
  cases u <;> simp only [Upc.cmd?, reduceCtorEq, Option.some.injEq] at hc <;> subst hc <;> simp_all

/-- What a step without `hw_rst` does to XFQ. -/
inductive RequestMove (s u : State) : Prop
  /-- XFQ stays -/
  | kept (h : u.xfq = s.xfq)
  /-- the request is consumed or dropped -/
  | cleared (h : u.xfq = none)
  /-- the micro-operation at UPC issues its request -/
  | issued (r : Request) (hr : RequestAt s r) (h : u.xfq = some r) (hp : s.ph = .issue) (hwait : u.ph = .wait)
      (hupc : u.upc = s.upc)

theorem requestMove_acceptOp (op : BitVec 3) (n : Nat) (s : State) : RequestMove s (acceptOp op n s) := by
  unfold acceptOp
  split
  · exact .cleared rfl
  · exact .kept rfl

theorem requestMove_retOk {s v : State} (h : v.xfq = s.xfq) : RequestMove s (retOk v) := by
  rcases retOk_cases v with ⟨-, -, he⟩ | ⟨-, he⟩ <;> rw [he]
  · exact .kept h
  · exact .cleared rfl

theorem requestMove_raiseError (e : ResCode) (d : Word) (s v : State) : RequestMove s (raiseError e d v) :=
  .cleared (raiseError_xfq e d v)

theorem Move.request {s u : State} (hm : Move s u) : RequestMove s u := by
  cases hm with
  | stay | delayLoaded | ticked | delayDone | lineUp | lineDown => exact .kept rfl
  | accepted u hu hv he =>
    obtain rfl := eq_acceptOp hu he
    exact requestMove_acceptOp _ _ s
  | issued c hc hp hk =>
    refine .issued _ (.write c hc ?_ ?_) rfl hp rfl rfl <;> rcases hk with rfl | rfl | rfl | rfl <;> decide
  | initIssued hu hp => exact .issued _ (.write .lscInit (by rw [hu]; rfl) (by decide) (by decide)) rfl hp rfl rfl
  | idIssued hu hp => exact .issued _ (.readIdentity hu) rfl hp rfl rfl
  | statusIssued hu hp => exact .issued _ (.readStatus hu) rfl hp rfl rfl
  | burstIssued hu hp => exact .issued _ (.writeMulti hu) rfl hp rfl rfl
  | failed => exact requestMove_raiseError _ _ s _
  | wrote | idRead | statusRead | queried => exact .cleared rfl
  | idChecked =>
    unfold microRst6
    split
    · exact requestMove_retOk rfl
    · exact requestMove_raiseError _ _ s s
  | drawn =>
    unfold microUpl2
    split
    · exact .kept rfl
    · exact requestMove_raiseError _ _ s s
  | doneChecked =>
    unfold microUpl5
    split
    · exact requestMove_retOk rfl
    · exact requestMove_raiseError _ _ s s
  | eraseEnded | finalEnded => exact requestMove_retOk rfl

/-- Settles O52: a new request is the issued one, and a WRITE is sent at one of six addresses. -/
theorem requestsHaveThreeShapes : Obligations.RequestsHaveThreeShapes := by
  intro s t r hrst hs hx hne
  obtain ⟨u, hm, rfl⟩ := step_move hs hrst
  rw [nextPort_xfq] at hx
  rw [nextPort_ph, nextPort_upc]
  cases hm.request with
  | kept h => exact absurd (h.symm.trans hx) hne
  | cleared h => exact absurd (h.symm.trans hx) nofun
  | issued r' hat h hp hwait hupc =>
    obtain rfl : r' = r := Option.some.inj (h.symm.trans hx)
    refine ⟨hp, hwait, hupc, ?_⟩
    cases hat with
    | write c hc hread hburst =>
      rcases sender_of_plain_write hc hread hburst with ⟨hu, rfl⟩ | ⟨hu, rfl⟩ | ⟨hu, rfl⟩ | ⟨hu, rfl⟩ | ⟨hu, rfl⟩ |
        ⟨hu, rfl⟩ <;> simp [hu]
    | readIdentity hu | readStatus hu | writeMulti hu => simp [hu]

/-! ### The Transport's duty of length (20_memory.md R68) -/

theorem waitsTransport_iff (s : State) : waitsTransport s = true ↔ s.ph = .wait ∧ s.upc.cmd?.isSome = true := by
  simp [waitsTransport]

/-- Settles O12: the stop of `step_fault_iff`. -/
theorem wrongResponseLengthStops : Obligations.WrongResponseLengthStops := by
  intro s bytes hrst hwaits hrsp hlen
  obtain ⟨hp, hc⟩ := (waitsTransport_iff s).mp hwaits
  exact step_fault_iff.mpr ⟨hrst, hc, hp, bytes, hrsp, hlen, rfl⟩

end Sys2Proof.Machine

/-! PROOFS. The statements of 30_encoding.md: what decodes and what it decodes to (R91 to R96, R116), the layout of a
message and the requests that may be emitted (R100, R101), the details of results (R109), the host's lines (R113,
R114). -/

namespace Sys2Proof

/-! ### Distinct frames decode to their command (30_encoding.md R96, R116) -/

theorem CmdRom.frame_injective {rom : CmdRom} (h : rom.distinct = true) : Function.Injective rom.frame :=
  fun k k' heq => List.inj_on_of_nodup_map (of_decide_eq_true h) k.mem_all k'.mem_all heq

theorem decodeFrame_frame_of_distinct {rom : CmdRom} (h : rom.distinct = true) (k : Cmd) :
    decodeFrame rom (rom.frame k) = .ok (Instr.ofCmd k) := by
  obtain ⟨k', hframe, hdecode⟩ := decodeFrame_frame rom k
  rwa [CmdRom.frame_injective h hframe] at hdecode

/-- Settles O2: a host operation by its code, a command by its frame, which no other command has. -/
theorem decodeEncodeAgree : Obligations.DecodeEncodeAgree := by
  intro c i hdistinct hwf
  rcases encodedAs_or_ofCmd hwf with ⟨op, n, henc⟩ | ⟨k, rfl⟩
  · exact henc.decode_encode
  · rw [format_ofCmd, encode_ofCmd]
    exact decodeFrame_frame_of_distinct hdistinct k

/-! ### What bytes that decode carry (30_encoding.md R91, R92, R96) -/

theorem leBytes_leNat (bs : List Byte) : leBytes bs.length (leNat bs) = bs := by
  induction bs with
  | nil => rfl
  | cons b bs ih =>
    have hlow : BitVec.ofNat 8 (b.toNat + 256 * leNat bs) = b := by
      apply BitVec.eq_of_toNat_eq
      have hb : b.toNat < 256 := b.isLt
      rw [BitVec.toNat_ofNat]
      omega
    have hhigh : (b.toNat + 256 * leNat bs) / 256 = leNat bs := by
      have hb : b.toNat < 256 := b.isLt
      omega
    rw [leNat_cons, List.length_cons, leBytes, hlow, hhigh, ih]

/-- A byte without a bit above bit 2 is the byte of the 3-bit code in it. -/
theorem setWidth_code {b : Byte} (h : b.toNat < 8) : (b.setWidth 3).setWidth 8 = b := by
  apply BitVec.eq_of_toNat_eq
  rw [BitVec.toNat_setWidth, BitVec.toNat_setWidth]
  omega

theorem exists_of_decodeFrame_ok {rom : CmdRom} {f : Frame} {i : Instr} (h : decodeFrame rom f = .ok i) :
    ∃ k, i = Instr.ofCmd k ∧ rom.frame k = f := by
  unfold decodeFrame at h
  split at h
  · next k hfound => exact ⟨k, (Except.ok.inj h).symm, by simpa using List.find?_some hfound⟩
  · cases h

/-- The decoder of host operations inverts their layout. -/
theorem exists_of_decode_hostop_ok {c : Config} {bs : List Byte} {i : Instr} (h : decode c .hostop bs = .ok i) :
    ∃ op n, n < 2 ^ c.lenW ∧ bs = opBytes c op n ∧ decodeOp op n = i := by
  cases bs with
  | nil => cases h
  | cons b ls =>
    simp only [decode] at h
    split at h
    · cases h
    next hlength =>
    split at h
    · cases h
    next hcode =>
    split at h
    · cases h
    next hfits =>
    refine ⟨b.setWidth 3, leNat ls, not_le.mp hfits, ?_, Except.ok.inj h⟩
    rw [opBytes, setWidth_code (not_le.mp hcode), ← not_not.mp hlength, leBytes_leNat]

/-- The operation of a code is encoded with its operand, which UPLOAD alone has (30_encoding.md R92). -/
theorem encodedAs_decodeOp {c : Config} (op : BitVec 3) {n : Nat} (h : n < 2 ^ c.lenW) :
    EncodedAs c (decodeOp op n) op (if op = 3 then n else 0) := by
  rcases Machine.op_cases op with rfl | rfl | rfl | rfl | rfl | rfl | rfl | rfl
  · exact .ofCode rfl rfl rfl
  · exact .ofCode rfl rfl rfl
  · exact .ofCode rfl rfl rfl
  · exact ⟨rfl, rfl, h, rfl⟩
  · exact .ofCode rfl rfl rfl
  · exact .ofCode rfl rfl rfl
  · exact .ofCode rfl rfl rfl
  · exact .ofCode rfl rfl rfl

theorem wf_decodeOp {c : Config} (op : BitVec 3) {n : Nat} (h : n < 2 ^ c.lenW) : (decodeOp op n).wf c = true := by
  rcases Machine.op_cases op with rfl | rfl | rfl | rfl | rfl | rfl | rfl | rfl
  · rfl
  · rfl
  · rfl
  · exact decide_eq_true h
  · rfl
  · rfl
  · rfl
  · rfl

/-- Settles O4: a frame is found in CMDROM, a host operation is the code and the operand that its bytes hold. -/
theorem decodedBytesCarryCodeOrFrame : Obligations.DecodedBytesCarryCodeOrFrame := by
  intro c bs i
  constructor
  · intro h
    obtain ⟨k, rfl, hframe⟩ := exists_of_decodeFrame_ok h
    exact ⟨format_ofCmd k, (encode_ofCmd c k).trans hframe⟩
  · intro h
    obtain ⟨op, n, hn, rfl, rfl⟩ := exists_of_decode_hostop_ok h
    have henc := encodedAs_decodeOp op hn
    exact ⟨henc.format, wf_decodeOp op hn, op, n, hn, rfl, rfl, fun h3 => by rw [henc.bytes, if_pos h3],
      fun h3 => by rw [henc.bytes, if_neg h3]⟩

/-! ### Words of the opcode table (30_encoding.md R91) -/

/-- A word of a host operation, its code in the low byte and its operand above, has the bytes of the operation. -/
theorem leBytes_opWord (c : Config) (op : BitVec 3) (n : Nat) :
    leBytes (1 + c.lenBytes) (op.toNat + 256 * n) = opBytes c op n := by
  have hop : op.toNat < 8 := op.isLt
  have hcode : BitVec.ofNat 8 (op.toNat + 256 * n) = op.setWidth 8 := by
    apply BitVec.eq_of_toNat_eq
    rw [BitVec.toNat_ofNat, BitVec.toNat_setWidth]
    omega
  have hoperand : (op.toNat + 256 * n) / 256 = n := by omega
  rw [Nat.add_comm, leBytes, hcode, hoperand, opBytes]

theorem decodeTableWord_opWord {nbits : Nat} (hbits : nbits ≠ 32) (op : BitVec 3) {n : Nat} (hn : n < 2 ^ 32) :
    decodeTableWord nbits (op.toNat + 256 * n) = some (decodeOp op n) := by
  have hformat : tableFormat nbits = .hostop := if_neg hbits
  rw [decodeTableWord, tableBytes, hformat]
  simp only [leBytes_opWord]
  rw [decode_opBytes (c := Config.hardware) op hn]
  rfl

/-- Settles O1: each word is a code with its operand; the byte 8 has a bit above the code. -/
theorem hostOpWordsDecode : Obligations.HostOpWordsDecode := by
  have hword (op : BitVec 3) : decodeTableWord 8 op.toNat = some (decodeOp op 0) :=
    decodeTableWord_opWord (n := 0) (by decide) op (by decide)
  exact ⟨hword 0, hword 1, hword 2, hword 3, hword 4, hword 5, hword 6, hword 7,
    decodeTableWord_opWord (n := 0x400) (by decide) 3 (by decide), by decide⟩

end Sys2Proof

namespace Sys2Proof.Machine

/-! ### The layout of a message (30_encoding.md R100, R101) -/

/-- Which field a bit of the header belongs to. -/
theorem getLsbD_header (m : Msg) (i : Nat) :
    m.header.getLsbD i =
      if i < 16 then m.len.getLsbD i
      else if i - 16 < 1 then (BitVec.ofBool m.nostart).getLsbD (i - 16)
      else (BitVec.ofBool m.rd).getLsbD (i - 16 - 1) := by
  rw [Msg.header, BitVec.getLsbD_append, BitVec.getLsbD_append]

/-- Settles O5: bit 17 is that of `rd`, bit 16 that of `nostart`, and `len` is appended below them. -/
theorem messageHeaderLayout : Obligations.MessageHeaderLayout := by
  refine ⟨fun m => ⟨?_, ?_, BitVec.extractLsb'_append_eq_right⟩, fun c k hlen => ?_, rfl⟩
  · rw [getLsbD_header]
    simp
  · rw [getLsbD_header]
    simp
  · simp [Msg.header, frameMsg, hlen]

/-! ### Requests that may be emitted (30_encoding.md R100, R101, 20_memory.md R69) -/

/-- A message of this length is not empty and within the transfer limit. -/
abbrev FitsTransfer (c : Config) (n : BitVec 16) : Prop :=
  1 ≤ n.toNat ∧ n.toNat ≤ c.maxXfer.toNat

/-- The fixed messages of well-formed parameters fit (00_scope.md R7 (b)). -/
theorem fitsTransfer_of_wf {c : Config} (hwf : c.wf = true) (hwhole : c.maxXferWhole = true) :
    FitsTransfer c c.cmdLen ∧ FitsTransfer c c.idReadLen ∧ FitsTransfer c c.statusReadLen := by
  simp only [Config.wf, Config.lengthsOk, Bool.and_eq_true, decide_eq_true_eq] at hwf
  simp only [Config.maxXferWhole, Bool.and_eq_true, decide_eq_true_eq] at hwhole
  obtain ⟨⟨-, ⟨hcmd, hid⟩, hstatus⟩, -⟩ := hwf
  obtain ⟨⟨hcmd', hid'⟩, hstatus'⟩ := hwhole
  exact ⟨⟨hcmd, hcmd'⟩, ⟨hid, hid'⟩, ⟨hstatus, hstatus'⟩⟩

theorem framesOk_of_wf {c : Config} (hwf : c.wf = true) : c.framesOk = true := by
  simp only [Config.wf, Bool.and_eq_true] at hwf
  obtain ⟨⟨⟨-, hframes⟩, -⟩, -⟩ := hwf
  exact hframes

theorem length_burstFrame {c : Config} (h : c.framesOk = true) : c.cmd.lscBitstreamBurst.length = c.prefixLen := by
  simp only [Config.framesOk, Bool.and_eq_true, beq_iff_eq] at h
  obtain ⟨-, hburst⟩ := h
  exact hburst

@[simp] theorem frameMsg_rd (c : Config) (k : Cmd) : (frameMsg c k).rd = false := rfl
@[simp] theorem frameMsg_nostart (c : Config) (k : Cmd) : (frameMsg c k).nostart = false := rfl
@[simp] theorem readMsg_rd (n : BitVec 16) : (readMsg n).rd = true := rfl

theorem msgOk_frameMsg {c : Config} (hframes : c.framesOk = true) (hfits : FitsTransfer c c.cmdLen) (k : Cmd) :
    msgOk c (frameMsg c k) = true := by
  simp [msgOk, frameMsg, hfits, Laws.frame_length hframes]

theorem msgOk_readMsg {c : Config} {n : BitVec 16} (hfits : FitsTransfer c n) : msgOk c (readMsg n) = true := by
  simp [msgOk, readMsg, hfits]

theorem requestOk_writeReq {c : Config} {k : Cmd} (hframe : msgOk c (frameMsg c k) = true) :
    requestOk c (writeReq c k) = true := by
  simp [requestOk, writeReq, hframe]

theorem requestOk_writeReadReq {c : Config} {k : Cmd} {n : BitVec 16} (hframe : msgOk c (frameMsg c k) = true)
    (hread : msgOk c (readMsg n) = true) : requestOk c (writeReadReq c k n) = true := by
  simp [requestOk, writeReadReq, hframe, hread, List.filter_cons]

/-! #### Chunks (43_upload.md R205, R206) -/

/-- Every chunk below N begins inside W. -/
theorem mul_lt_of_lt_ceilDiv {i t m : Nat} (hm : 1 ≤ m) (h : i < ceilDiv t m) : i * m < t := by
  have hle : (i + 1) * m ≤ t + m - 1 := (Nat.le_div_iff_mul_le hm).mp h
  rw [Nat.succ_mul] at hle
  omega

theorem ceilDiv_pos {t m : Nat} (hm : 1 ≤ m) (ht : 1 ≤ t) : 1 ≤ ceilDiv t m :=
  (Nat.le_div_iff_mul_le hm).mpr (by omega)

theorem chunkLen_le (m t i : Nat) : chunkLen m t i ≤ m := Nat.min_le_left _ _

theorem chunkLen_pos {m t i : Nat} (hm : 1 ≤ m) (h : i < ceilDiv t m) : 1 ≤ chunkLen m t i :=
  Nat.le_min.mpr ⟨hm, Nat.sub_pos_of_lt (mul_lt_of_lt_ceilDiv hm h)⟩

theorem length_logicalBytes (w : Nat → Byte) (off n : Nat) : (logicalBytes w off n).length = n := by
  simp [logicalBytes]

@[simp] theorem chunkMsg_rd (w : Nat → Byte) (m t i : Nat) : (chunkMsg w m t i).rd = false := rfl
@[simp] theorem chunkMsg_zero_nostart (w : Nat → Byte) (m t : Nat) : (chunkMsg w m t 0).nostart = false := rfl

/-- The 16 bits of `len` hold the length of a chunk (30_encoding.md R102). -/
theorem toNat_chunkMsg_len (w : Nat → Byte) {m : Nat} (hm : m < 2 ^ 16) (t i : Nat) :
    (chunkMsg w m t i).len.toNat = chunkLen m t i :=
  Nat.mod_eq_of_lt ((chunkLen_le m t i).trans_lt hm)

theorem msgOk_chunkMsg {c : Config} (w : Nat → Byte) {t i : Nat} (hm : 1 ≤ c.maxXfer.toNat)
    (h : i < ceilDiv t c.maxXfer.toNat) : msgOk c (chunkMsg w c.maxXfer.toNat t i) = true := by
  have hlen := toNat_chunkMsg_len w c.maxXfer.isLt t i
  have hdata : (chunkMsg w c.maxXfer.toNat t i).data.length = chunkLen c.maxXfer.toNat t i :=
    length_logicalBytes w _ _
  simp [msgOk, hlen, hdata, chunkLen_pos hm h, chunkLen_le]

theorem head?_chunks (w : Nat → Byte) {m t : Nat} (h : 1 ≤ ceilDiv t m) :
    (chunks w m t).head? = some (chunkMsg w m t 0) := by
  obtain ⟨k, hk⟩ := Nat.exists_eq_add_of_le' h
  simp [chunks, hk, List.range_succ_eq_map]

theorem requestOk_chunks {c : Config} (w : Nat → Byte) {t : Nat} (hm : 1 ≤ c.maxXfer.toNat) (ht : 1 ≤ t) :
    requestOk c (chunks w c.maxXfer.toNat t) = true := by
  have hmsgs : (chunks w c.maxXfer.toNat t).all (msgOk c) = true := by
    simpa [chunks] using fun i hi => msgOk_chunkMsg w hm hi
  have hreads : (chunks w c.maxXfer.toNat t).filter (fun m => m.rd) = [] := by
    simp [chunks]
  simp [requestOk, head?_chunks w (ceilDiv_pos hm ht), hmsgs, hreads]

/-! #### The pending request -/

/-- What a micro-operation issues may be emitted; the burst, because W is not empty. -/
theorem RequestAt.requestOk {s : State} {r : Request} (hr : RequestAt s r) (hwf : s.cfg.wf = true)
    (hwhole : s.cfg.maxXferWhole = true) (htot : s.upc.inUpl = true → s.tot = s.len + s.cfg.prefixLen) :
    requestOk s.cfg r = true := by
  obtain ⟨hcmd, hid, hstatus⟩ := fitsTransfer_of_wf hwf hwhole
  have hframes := framesOk_of_wf hwf
  have hframe (k : Cmd) : msgOk s.cfg (frameMsg s.cfg k) = true := msgOk_frameMsg hframes hcmd k
  cases hr with
  | write c => exact requestOk_writeReq (hframe c)
  | readIdentity => exact requestOk_writeReadReq (hframe _) (msgOk_readMsg hid)
  | readStatus => exact requestOk_writeReadReq (hframe _) (msgOk_readMsg hstatus)
  | writeMulti hu =>
    refine requestOk_chunks _ (hcmd.1.trans hcmd.2) ?_
    calc 1 ≤ s.cfg.cmdLen.toNat := hcmd.1
      _ = s.cfg.prefixLen := (Laws.frame_length hframes .lscBitstreamBurst).symm.trans (length_burstFrame hframes)
      _ ≤ s.len + s.cfg.prefixLen := Nat.le_add_left _ _
      _ = s.tot := (htot (by rw [hu]; rfl)).symm

/-- In UPL, LEN and TOT have just been latched by acceptance, or are those that `s` had in UPL. -/
theorem Move.latched_or_kept {s u : State} (hm : Move s u) (hu : u.upc.inUpl = true) :
    Latched u ∨ (s.upc.inUpl = true ∧ u.len = s.len ∧ u.tot = s.tot) := by
  by_cases hidle : s.upc = .idle
  · rcases hm.of_idle hidle with rfl | rfl
    · exact .inr ⟨hu, rfl, rfl⟩
    · exact .inl (latched_acceptOp hu)
  · obtain ⟨hlen, htot⟩ := hm.write.upload_cases.resolve_right (fun hup => hidle hup.1)
    exact .inr ⟨hm.transfer.of_inUpl hidle hu, hlen, htot⟩

theorem Move.tot_eq {s u : State} (hm : Move s u) (h : s.upc.inUpl = true → s.tot = s.len + s.cfg.prefixLen)
    (hu : u.upc.inUpl = true) : u.tot = u.len + u.cfg.prefixLen := by
  rcases hm.latched_or_kept hu with ⟨-, htot⟩ | ⟨hs, hlen, htot⟩
  · exact htot
  · rw [htot, hlen, hm.write.cfg_eq]
    exact h hs

/-- Settles O57: a step leaves the pending request, clears it, or issues one that the parameters and TOT make fit. -/
theorem stepKeepsRequestInv : Obligations.StepKeepsRequestInv := by
  refine step_keeps (fun s h => by simpa [RequestInv] using h) ?_ ?_
  · rintro s ⟨hwf, hwhole, -, -⟩
    exact ⟨hwf, hwhole, nofun, nofun⟩
  · rintro s u ⟨hwf, hwhole, htot, hreq⟩ hm
    have hcfg := hm.write.cfg_eq
    refine ⟨hcfg ▸ hwf, hcfg ▸ hwhole, hm.tot_eq htot, fun r hx => ?_⟩
    rw [hcfg]
    cases hm.request with
    | kept h => exact hreq r (h.symm.trans hx)
    | cleared h => exact absurd (h.symm.trans hx) nofun
    | issued r' hr h =>
      obtain rfl : r' = r := Option.some.inj (h.symm.trans hx)
      exact hr.requestOk hwf hwhole htot

/-! ### The results of operations (30_encoding.md R108, R109) -/

/-- The result with which the operation that runs in `s` can end: by `ret_ok` outside QRY, by QUERY, or by the error
that a check or an answer of the Transport raises. -/
inductive EndsWith (s : State) : ResCode → Word → Prop
  /-- RST6, ERS4, UPL5 or FIN1 ends without error -/
  | done (hu : s.upc ≠ .qry0) : EndsWith s .ok 0
  /-- QRY0 answers the state -/
  | queried (hu : s.upc = .qry0) : EndsWith s .ok s.cfg.stateOperating
  /-- the Transport answers a request with an error -/
  | transport (code : Nat) (hc : s.upc.cmd?.isSome = true) (hr : s.port.rsp = some (.err code)) :
      EndsWith s .transport (errDetail s.cfg code)
  /-- RST6 finds another identity -/
  | identity (hu : s.upc = .rst6) : EndsWith s .identityMismatch s.idr
  /-- UPL5 finds DONE clear -/
  | incomplete (hu : s.upc = .upl5) : EndsWith s .uploadIncomplete s.sr
  /-- UPL2 draws no buffer -/
  | noBuffer (hu : s.upc = .upl2) : EndsWith s .allocation 0

theorem endsWith_raiseError {s v : State} {e : ResCode} {d : Word} (h : EndsWith s e d)
    (hu : (raiseError e d v).upc = .idle) : EndsWith s (raiseError e d v).resCode (raiseError e d v).resDetail := by
  rcases raiseError_cases e d v with ⟨-, -, he⟩ | ⟨-, -, he⟩ | ⟨-, he⟩ <;> rw [he] at hu ⊢
  · cases hu
  · exact h
  · exact h

theorem endsWith_retOk {s v : State} (h : s.upc ≠ .qry0) (hu : (retOk v).upc = .idle) :
    EndsWith s (retOk v).resCode (retOk v).resDetail := by
  rcases retOk_cases v with ⟨-, -, he⟩ | ⟨-, he⟩ <;> rw [he] at hu ⊢
  · cases hu
  · exact .done h

theorem Upc.next_ne_idle_of_cmd? {u : Upc} {k : Cmd} (h : u.cmd? = some k) : u.next ≠ .idle := by
  revert h
  cases u <;> simp [Upc.cmd?, Upc.next]

theorem Upc.next_ne_idle_of_delay? {u : Upc} {c : Config} {n : Nat} (h : u.delay? c = some n) : u.next ≠ .idle := by
  revert h
  cases u <;> simp [Upc.delay?, Upc.next]

theorem Move.endsWith {s u : State} (hm : Move s u) (hrun : s.upc ≠ .idle) (hu : u.upc = .idle) :
    EndsWith s u.resCode u.resDetail := by
  cases hm with
  | stay | issued | initIssued | idIssued | statusIssued | burstIssued | delayLoaded | ticked => exact absurd hu hrun
  | accepted _ hidle => exact absurd hidle hrun
  | wrote c hc => exact absurd hu (Upc.next_ne_idle_of_cmd? hc)
  | delayDone n hn => exact absurd hu (Upc.next_ne_idle_of_delay? hn)
  | idRead _ hat | statusRead _ hat | lineUp hat | lineDown hat =>
    exact absurd hu (by simp [microRst0, microRst2, line, hat, Upc.next])
  | failed c code hc _ hr =>
    exact endsWith_raiseError (v := answeredByError s) (.transport code (by rw [hc]; rfl) hr) hu
  | idChecked hat =>
    revert hu
    unfold microRst6
    split
    · exact endsWith_retOk (by simp [hat])
    · exact endsWith_raiseError (.identity hat)
  | drawn hat =>
    revert hu
    unfold microUpl2
    split
    · exact nofun
    · exact endsWith_raiseError (.noBuffer hat)
  | doneChecked hat =>
    revert hu
    unfold microUpl5
    split
    · exact endsWith_retOk (by simp [hat])
    · exact endsWith_raiseError (.incomplete hat)
  | eraseEnded hat | finalEnded hat => exact endsWith_retOk (by simp [hat]) hu
  | queried hat => exact .queried hat

/-- Code 0 alone runs QRY (30_encoding.md R91). -/
theorem opr_eq_zero_iff {op : BitVec 3} {u : Upc} (hrun : u ≠ .idle) (h : op ∈ u.runBy) : op = 0 ↔ u = .qry0 := by
  revert hrun h
  revert op
  cases u <;> decide

theorem toNat_errDetail {c : Config} {code : Nat} (hw : c.errW ≤ 32) (hcode : code < 2 ^ c.errW) :
    (errDetail c code).toNat = code := by
  have hword : code < 2 ^ 32 := hcode.trans_le (Nat.pow_le_pow_right (by decide) hw)
  rw [errDetail, lines, Nat.mod_eq_of_lt hcode, BitVec.toNat_ofNat, Nat.mod_eq_of_lt hword]

/-- Settles O49: the detail is read off the end of the operation; OPR tells QRY from the other routines. -/
theorem resultDetails : Obligations.ResultDetails := by
  rintro s t ⟨-, hopr, -⟩ hrst hrun hs hu
  obtain ⟨u, hm, rfl⟩ := step_move hs hrst
  have hquery := opr_eq_zero_iff hrun hopr
  simp only [nextPort_resCode, nextPort_resDetail, nextPort_upc] at hu ⊢
  generalize hcode : u.resCode = code, hdetail : u.resDetail = detail
  have hends := hm.endsWith hrun hu
  rw [hcode, hdetail] at hends
  cases hends with
  | done hne => exact ⟨fun _ => (if_neg (mt hquery.mp hne)).symm, nofun, nofun, nofun, nofun⟩
  | queried hat => exact ⟨fun _ => (if_pos (hquery.mpr hat)).symm, nofun, nofun, nofun, nofun⟩
  | transport code _ hr => exact ⟨nofun, fun _ => ⟨code, hr, rfl, toNat_errDetail⟩, nofun, nofun, nofun⟩
  | identity => exact ⟨nofun, nofun, fun _ => rfl, nofun, nofun⟩
  | incomplete => exact ⟨nofun, nofun, nofun, fun _ => rfl, nofun⟩
  | noBuffer => exact ⟨nofun, nofun, nofun, nofun, fun _ => rfl⟩

/-! ### The host's lines (30_encoding.md R113, R114) -/

/-- The ports that a line drives select the operation that it names. -/
theorem decodeOp_present {l : HostLine} {s : State} (h : l.instr.wf s.cfg = true) :
    decodeOp (l.present s).port.op (portLen (l.present s)) = l.instr := by
  cases l with
  | upload image =>
    have hlen : portLen ((HostLine.upload image).present s) = image.toBytes.length :=
      Nat.mod_eq_of_lt (of_decide_eq_true h)
    rw [hlen]
    rfl
  | queryState | reset | prepareErase | finalize | resetRetry | writeInit => rfl

/-- Settles O45: the idle block fetches what the ports select, and accepts it. -/
theorem hostLinesPresentTheirOperation : Obligations.HostLinesPresentTheirOperation := by
  refine ⟨fun l s hu hwf => ?_, fun image => ⟨rfl, rfl⟩⟩
  have hidle : (l.present s).upc = .idle := hu
  have hvalid : (l.present s).port.opValid = true := rfl
  have hop := decodeOp_present hwf
  have hexec := exec_decodeOp_of_idle hidle (l.present s).port.op (portLen (l.present s))
  rw [hop] at hexec
  refine ⟨by rw [fetched, if_pos hidle, if_pos hvalid, hop], _, hexec, ?_⟩
  rw [step_at_idle rfl hidle, if_pos hvalid, hop, hexec, afterStep_of_next]

end Sys2Proof.Machine

/-! PROOFS. The statements of 40_sequencer.md: the bound on the steps of an operation (R144), where control goes (R144,
R147), which steps are enabled and what they read (R132, R143, R146), acceptance (R133, R134, R142), the two phases of a
command (R136 to R140), DELAY (R139), the line and the ends of routines (R135, R141). -/

namespace Sys2Proof.Machine

/-! ### The bound on the steps of an operation (40_sequencer.md R144) -/

/-- The first summand of `stepsLeft`: the enabled steps to the end of the running routine. -/
def routineLeft (s : State) : Nat :=
  match s.ph, s.upc.delay? s.cfg with
  | .issue, _ => s.upc.routineSteps s.cfg
  | .wait, none => s.upc.routineSteps s.cfg - 1
  | .wait, some _ => s.upc.next.routineSteps s.cfg + s.dly + 1

/-- The other summands of `stepsLeft`: the attempts that may follow, and ERS after a WRITE_INIT's reset. -/
def laterLeft (s : State) : Nat :=
  (if retries s then (s.cfg.maxResetAttempts - 1 - s.att) * Upc.rst0.routineSteps s.cfg else 0) +
  (if s.upc.inRst && s.opr == 6 then Upc.ers0.routineSteps s.cfg else 0)

theorem stepsLeft_eq (s : State) : stepsLeft s = routineLeft s + laterLeft s :=
  Nat.add_assoc _ _ _

@[simp] theorem stepsLeft_nextPort (s : State) : stepsLeft (nextPort s) = stepsLeft s := by
  simp [stepsLeft, retries]

theorem routineLeft_of_issue {s : State} (hp : s.ph = .issue) : routineLeft s = s.upc.routineSteps s.cfg := by
  simp [routineLeft, hp]

theorem routineLeft_of_request {s : State} {c : Cmd} (hc : s.upc.cmd? = some c) (hp : s.ph = .wait) :
    routineLeft s = s.upc.routineSteps s.cfg - 1 := by
  simp [routineLeft, hp, Upc.delay?_of_cmd? hc]

theorem routineLeft_of_delay {s : State} {n : Nat} (hn : s.upc.delay? s.cfg = some n) (hp : s.ph = .wait) :
    routineLeft s = s.upc.next.routineSteps s.cfg + s.dly + 1 := by
  simp [routineLeft, hp, hn]

/-! #### Routines (95_test_vectors.md section 0) -/

theorem Upc.routineSteps_pos {u : Upc} (c : Config) (hu : u ≠ .idle) : 0 < u.routineSteps c := by
  cases u <;> simp_all [Upc.routineSteps]

/-- A transaction takes two steps. -/
theorem Upc.routineSteps_of_cmd? {u : Upc} {k : Cmd} (h : u.cmd? = some k) (c : Config) :
    u.routineSteps c = u.next.routineSteps c + 2 := by
  cases u <;> simp_all [Upc.cmd?, Upc.routineSteps, Upc.next]

/-- A DELAY of n ticks takes n + 2 steps. -/
theorem Upc.routineSteps_of_delay? {u : Upc} {c : Config} {n : Nat} (h : u.delay? c = some n) :
    u.routineSteps c = u.next.routineSteps c + n + 2 := by
  cases u <;> simp only [Upc.delay?, reduceCtorEq, Option.some.injEq] at h <;> subst h <;>
    simp only [Upc.routineSteps, Upc.next] <;> omega

theorem Upc.inRst_next {u : Upc} (h : u.next ≠ .idle) : u.next.inRst = u.inRst := by
  revert h
  cases u <;> decide

/-! #### Each kind of transfer makes the bound smaller -/

theorem laterLeft_congr {s u : State} (hcfg : u.cfg = s.cfg) (hin : u.upc.inRst = s.upc.inRst) (hop : SameOp s u) :
    laterLeft u = laterLeft s := by
  have hretries : retries u = retries s := by rw [retries, retries, hin, hop.opr]
  rw [laterLeft, laterLeft, hretries, hcfg, hin, hop.opr, hop.att]

/-- Within a routine it is enough that the routine gets shorter. -/
theorem stepsLeft_lt_of_routineLeft_lt {s u : State} (hcfg : u.cfg = s.cfg) (hin : u.upc.inRst = s.upc.inRst)
    (hop : SameOp s u) (h : routineLeft u < routineLeft s) : stepsLeft u < stepsLeft s := by
  rw [stepsLeft_eq, stepsLeft_eq, laterLeft_congr hcfg hin hop]
  omega

theorem stepsLeft_lt_of_idle {s u : State} (hu : u.upc = .idle) (hp : u.ph = .issue) (h : 0 < routineLeft s) :
    stepsLeft u < stepsLeft s := by
  have hzero : stepsLeft u = 0 := by simp [stepsLeft, hp, hu, retries, Upc.inRst, Upc.routineSteps]
  rw [hzero, stepsLeft_eq]
  omega

/-- The next attempt takes its steps from the attempts that were left. -/
theorem stepsLeft_retried {s u : State} (hretries : retries s = true) (hatt : s.att + 1 < s.cfg.maxResetAttempts)
    (hcfg : u.cfg = s.cfg) (hopr : u.opr = s.opr) (hatt' : u.att = s.att + 1) (hupc : u.upc = .rst0)
    (hp : u.ph = .issue) : stepsLeft u = laterLeft s := by
  obtain ⟨hwrapped, hin⟩ := (retries_iff s).mp hretries
  have hin' : u.upc.inRst = true := by rw [hupc]; rfl
  have hretries' : retries u = true := (retries_iff u).mpr ⟨hopr ▸ hwrapped, hin'⟩
  have hcount : s.cfg.maxResetAttempts - 1 - s.att = (s.cfg.maxResetAttempts - 1 - (s.att + 1)) + 1 := by omega
  rw [stepsLeft_eq, routineLeft_of_issue hp, laterLeft, laterLeft, if_pos hretries, if_pos hretries', hin, hin', hupc,
    hcfg, hopr, hatt', hcount, Nat.succ_mul]
  omega

/-- The erase of WRITE_INIT takes the steps set aside for it. -/
theorem stepsLeft_toErase {s u : State} (hat : s.upc = .rst6) (h6 : s.opr = 6) (hcfg : u.cfg = s.cfg)
    (hupc : u.upc = .ers0) (hp : u.ph = .issue) : stepsLeft u ≤ laterLeft s := by
  rw [stepsLeft_eq, routineLeft_of_issue hp]
  simp [laterLeft, retries, hcfg, hupc, hat, h6, Upc.inRst]

theorem stepsLeft_raiseError_lt {s v : State} (hcfg : v.cfg = s.cfg) (hupc : v.upc = s.upc) (hop : SameOp s v)
    (hpos : 0 < routineLeft s) (e : ResCode) (d : Word) : stepsLeft (raiseError e d v) < stepsLeft s := by
  rcases raiseError_cases e d v with ⟨hr, hb, he⟩ | ⟨-, -, he⟩ | ⟨-, he⟩
  · have hleft : stepsLeft (raiseError e d v) = laterLeft v :=
      stepsLeft_retried hr hb (raiseError_cfg e d v) (raiseError_opr e d v) (by rw [he]) (by rw [he])
        (raiseError_ph e d v)
    rw [hleft, stepsLeft_eq, laterLeft_congr hcfg (congrArg _ hupc) hop]
    omega
  · rw [he]
    exact stepsLeft_lt_of_idle rfl rfl hpos
  · rw [he]
    exact stepsLeft_lt_of_idle rfl rfl hpos

theorem stepsLeft_retOk_lt {s v : State} (hcfg : v.cfg = s.cfg) (hupc : v.upc = s.upc) (hop : SameOp s v)
    (hpos : 0 < routineLeft s) : stepsLeft (retOk v) < stepsLeft s := by
  rcases retOk_cases v with ⟨h6, hu, he⟩ | ⟨-, he⟩
  · have hleft : stepsLeft (retOk v) ≤ laterLeft v :=
      stepsLeft_toErase hu h6 (retOk_cfg v) (by rw [he]) (retOk_ph v)
    rw [laterLeft_congr hcfg (congrArg _ hupc) hop] at hleft
    rw [stepsLeft_eq s]
    omega
  · rw [he]
    exact stepsLeft_lt_of_idle rfl rfl hpos

/-- The ISSUE phase of a transaction is the first of its two steps. -/
theorem stepsLeft_issued_lt {s u : State} {c : Cmd} (hc : s.upc.cmd? = some c) (hp : s.ph = .issue)
    (hcfg : u.cfg = s.cfg) (hupc : u.upc = s.upc) (hop : SameOp s u) (hwait : u.ph = .wait) :
    stepsLeft u < stepsLeft s := by
  refine stepsLeft_lt_of_routineLeft_lt hcfg (congrArg _ hupc) hop ?_
  have hpos := Upc.routineSteps_pos s.cfg (Upc.ne_idle_of_cmd? hc)
  rw [routineLeft_of_issue hp, routineLeft_of_request (hupc ▸ hc) hwait, hcfg, hupc]
  omega

/-- A micro-operation completes. -/
theorem stepsLeft_next_lt {s u : State} (hcfg : u.cfg = s.cfg) (hupc : u.upc = s.upc.next) (hop : SameOp s u)
    (hp : u.ph = .issue) (hne : s.upc.next ≠ .idle) (h : s.upc.next.routineSteps s.cfg < routineLeft s) :
    stepsLeft u < stepsLeft s := by
  refine stepsLeft_lt_of_routineLeft_lt hcfg (hupc ▸ Upc.inRst_next hne) hop ?_
  rwa [routineLeft_of_issue hp, hcfg, hupc]

/-- A request is answered with success. -/
theorem stepsLeft_answered_lt {s u : State} {c : Cmd} (hc : s.upc.cmd? = some c) (hp : s.ph = .wait)
    (hcfg : u.cfg = s.cfg) (hupc : u.upc = s.upc.next) (hop : SameOp s u) (hissue : u.ph = .issue) :
    stepsLeft u < stepsLeft s := by
  refine stepsLeft_next_lt hcfg hupc hop hissue (Upc.next_ne_idle_of_cmd? hc) ?_
  rw [routineLeft_of_request hc hp, Upc.routineSteps_of_cmd? hc]
  omega

/-- A DELAY drains. -/
theorem stepsLeft_draining_lt {s u : State} {n : Nat} (hn : s.upc.delay? s.cfg = some n) (hcfg : u.cfg = s.cfg)
    (hupc : u.upc = s.upc) (hop : SameOp s u) (hp : u.ph = .wait)
    (h : s.upc.next.routineSteps s.cfg + u.dly + 1 < routineLeft s) : stepsLeft u < stepsLeft s := by
  refine stepsLeft_lt_of_routineLeft_lt hcfg (congrArg _ hupc) hop ?_
  rwa [routineLeft_of_delay (by rwa [hcfg, hupc]) hp, hcfg, hupc]

theorem Move.stepsLeft_lt {s u : State} (hm : Move s u) (hrun : s.upc ≠ .idle) (he : enabled s = true) :
    stepsLeft u < stepsLeft s := by
  have hpos : s.ph = .issue → 0 < routineLeft s := fun hp => by
    rw [routineLeft_of_issue hp]
    exact Upc.routineSteps_pos s.cfg hrun
  cases hm with
  | stay hs => simp [hs] at he
  | accepted _ hidle => exact absurd hidle hrun
  | issued c hc hp => exact stepsLeft_issued_lt hc hp rfl rfl ⟨rfl, rfl⟩ rfl
  | initIssued hu hp | idIssued hu hp | statusIssued hu hp | burstIssued hu hp =>
    exact stepsLeft_issued_lt (by rw [hu]; rfl) hp rfl rfl ⟨rfl, rfl⟩ rfl
  | failed c code hc hp =>
    refine stepsLeft_raiseError_lt (s := s) (v := answeredByError s) rfl rfl ⟨rfl, rfl⟩ ?_ _ _
    rw [routineLeft_of_request hc hp, Upc.routineSteps_of_cmd? hc]
    omega
  | wrote c hc hp => exact stepsLeft_answered_lt hc hp rfl rfl ⟨rfl, rfl⟩ rfl
  | idRead _ hu hp | statusRead _ hu hp =>
    exact stepsLeft_answered_lt (by rw [hu]; rfl) hp rfl rfl ⟨rfl, rfl⟩ rfl
  | delayLoaded n hn hp =>
    refine stepsLeft_draining_lt hn rfl rfl ⟨rfl, rfl⟩ rfl ?_
    rw [routineLeft_of_issue hp, Upc.routineSteps_of_delay? hn]
    exact Nat.lt_succ_self _
  | ticked n hn hp h0 =>
    refine stepsLeft_draining_lt hn rfl rfl ⟨rfl, rfl⟩ hp ?_
    rw [routineLeft_of_delay hn hp]
    dsimp only
    omega
  | delayDone n hn hp =>
    refine stepsLeft_next_lt rfl rfl ⟨rfl, rfl⟩ rfl (Upc.next_ne_idle_of_delay? hn) ?_
    rw [routineLeft_of_delay hn hp]
    omega
  | lineUp hu hp | lineDown hu hp =>
    refine stepsLeft_next_lt rfl rfl ⟨rfl, rfl⟩ rfl (by rw [hu]; decide) ?_
    simp [routineLeft_of_issue hp, hu, Upc.next, Upc.routineSteps]
  | idChecked hu hp =>
    unfold microRst6
    split
    · exact stepsLeft_retOk_lt rfl rfl ⟨rfl, rfl⟩ (hpos hp)
    · exact stepsLeft_raiseError_lt rfl rfl ⟨rfl, rfl⟩ (hpos hp) _ _
  | drawn hu hp =>
    unfold microUpl2
    split
    · refine stepsLeft_next_lt rfl (by rw [hu]; rfl) ⟨rfl, rfl⟩ rfl (by rw [hu]; decide) ?_
      simp [routineLeft_of_issue hp, hu, Upc.next, Upc.routineSteps]
    · exact stepsLeft_raiseError_lt rfl rfl ⟨rfl, rfl⟩ (hpos hp) _ _
  | doneChecked hu hp =>
    unfold microUpl5
    split
    · exact stepsLeft_retOk_lt rfl rfl ⟨rfl, rfl⟩ (hpos hp)
    · exact stepsLeft_raiseError_lt rfl rfl ⟨rfl, rfl⟩ (hpos hp) _ _
  | eraseEnded hu hp | finalEnded hu hp =>
    exact stepsLeft_retOk_lt rfl rfl ⟨rfl, rfl⟩ (hpos hp)
  | queried hu hp => exact stepsLeft_lt_of_idle rfl rfl (hpos hp)

/-- Settles O47: a step of an enabled state is no stay, and every other move makes the bound smaller. -/
theorem operationsEnd : Obligations.OperationsEnd := by
  intro s t hrst hrun he hs
  obtain ⟨u, hm, rfl⟩ := step_move hs hrst
  rw [stepsLeft_nextPort]
  exact hm.stepsLeft_lt hrun he

/-! ### Transfers of control (40_sequencer.md R144, R147) -/

theorem Upc.next_mem_targets {u : Upc} (h : u.next ≠ .idle) : u.next ∈ u.targets := by
  revert h
  cases u <;> decide

/-- The last address of a routine ends the operation. -/
theorem Upc.idle_mem_targets {u : Upc} (h : u.next = .idle) : .idle ∈ u.targets := by
  revert h
  cases u <;> decide

/-- No micro-operation completes to RST0. -/
theorem Upc.next_ne_rst0 (u : Upc) : u.next ≠ .rst0 := by
  cases u <;> decide

theorem routineEntry_mem_targets (op : BitVec 3) : routineEntry op ∈ Upc.idle.targets := by
  revert op
  decide

/-- The addresses at which an error can arise: a transport micro-operation or one of the three checks. -/
def Upc.canFail (u : Upc) : Bool :=
  u.cmd?.isSome || u == .rst6 || u == .upl2 || u == .upl5

/-- An error ends the operation, or begins the next attempt if it arises in RST. -/
theorem Upc.targets_of_canFail {u : Upc} (h : u.canFail = true) :
    .idle ∈ u.targets ∧ (u.inRst = true → .rst0 ∈ u.targets) := by
  revert h
  cases u <;> decide

theorem raiseError_upc_mem_targets {v : State} (h : v.upc.canFail = true) (e : ResCode) (d : Word) :
    (raiseError e d v).upc ∈ v.upc.targets := by
  obtain ⟨hidle, hrst0⟩ := Upc.targets_of_canFail h
  rcases raiseError_cases e d v with ⟨hr, -, he⟩ | ⟨-, -, he⟩ | ⟨-, he⟩ <;> rw [he]
  · exact hrst0 ((retries_iff v).mp hr).2
  · exact hidle
  · exact hidle

theorem retOk_upc_mem_targets {v : State} (h : v.upc.next = .idle) : (retOk v).upc ∈ v.upc.targets := by
  rcases retOk_cases v with ⟨-, hu, he⟩ | ⟨-, he⟩ <;> rw [he]
  · rw [hu]
    exact (by decide : Upc.ers0 ∈ Upc.rst6.targets)
  · exact Upc.idle_mem_targets h

theorem Move.upc_mem_targets {s u : State} (hm : Move s u) : u.upc = s.upc ∨ u.upc ∈ s.upc.targets := by
  cases hm with
  | stay | issued | initIssued | idIssued | statusIssued | burstIssued | delayLoaded | ticked => exact .inl rfl
  | accepted u hu _ he =>
    rw [eq_acceptOp hu he, acceptOp_upc, hu]
    exact .inr (routineEntry_mem_targets _)
  | failed c code hc =>
    exact .inr (raiseError_upc_mem_targets (v := answeredByError s) (by simp [answeredByError, Upc.canFail, hc]) _ _)
  | wrote c hc => exact .inr (Upc.next_mem_targets (Upc.next_ne_idle_of_cmd? hc))
  | delayDone n hn => exact .inr (Upc.next_mem_targets (Upc.next_ne_idle_of_delay? hn))
  | idRead _ hu | statusRead _ hu | lineUp hu | lineDown hu =>
    exact .inr (Upc.next_mem_targets (u := s.upc) (by rw [hu]; decide))
  | idChecked hu =>
    unfold microRst6
    split
    · exact .inr (retOk_upc_mem_targets (v := advance .identified s) (by rw [advance_upc, hu]; rfl))
    · exact .inr (raiseError_upc_mem_targets (by rw [hu]; rfl) _ _)
  | drawn hu =>
    unfold microUpl2
    split
    · rw [hu]
      exact .inr (by decide : Upc.upl3 ∈ Upc.upl2.targets)
    · exact .inr (raiseError_upc_mem_targets (by rw [hu]; rfl) _ _)
  | doneChecked hu =>
    unfold microUpl5
    split
    · exact .inr (retOk_upc_mem_targets (v := advance .verified s) (by rw [advance_upc, hu]; rfl))
    · exact .inr (raiseError_upc_mem_targets (by rw [hu]; rfl) _ _)
  | eraseEnded hu => exact .inr (retOk_upc_mem_targets (v := advance .erased s) (by rw [advance_upc, hu]; rfl))
  | finalEnded hu =>
    exact .inr (retOk_upc_mem_targets (v := advance .complete { s with loaded := true }) (by rw [advance_upc, hu]; rfl))
  | queried hu => exact .inr (Upc.idle_mem_targets (by rw [hu]; rfl))

/-- A running operation comes back to RST0 by a retry alone. -/
theorem Transfer.retry_of_rst0 {s u : State} (ht : Transfer s u) (hrun : s.upc ≠ .idle) (hu : u.upc = .rst0)
    (hne : s.upc ≠ .rst0) :
    (s.opr = 5 ∨ s.opr = 6) ∧ s.upc.inRst = true ∧ s.att + 1 < s.cfg.maxResetAttempts ∧ u.att = s.att + 1 := by
  cases ht with
  | kept hupc => exact absurd (hupc.symm.trans hu) hne
  | next _ hupc => exact absurd (hupc.symm.trans hu) s.upc.next_ne_rst0
  | accepted hidle | reserved hidle => exact absurd hidle hrun
  | ended _ hupc | toErase _ _ hupc | exhausted _ _ hupc => simp [hu] at hupc
  | retried _ hretries hbound _ _ hatt =>
    obtain ⟨hwrapped, hin⟩ := (retries_iff s).mp hretries
    exact ⟨hwrapped, hin, hbound, hatt⟩

/-- RST6 goes on to ERS0 under WRITE_INIT after a match alone. -/
theorem Move.match_of_ers0 {s u : State} (hm : Move s u) (h6 : s.upc = .rst6) (hu : u.upc = .ers0) :
    s.opr = 6 ∧ s.idr = s.cfg.expectedIdcode := by
  cases hm with
  | idChecked =>
    unfold microRst6 at hu
    split at hu
    · next hmatch =>
      rcases retOk_cases (advance .identified s) with ⟨hopr, -, -⟩ | ⟨-, he⟩
      · exact ⟨hopr, hmatch⟩
      · simp [he] at hu
    · rcases raiseError_upc .identityMismatch s.idr s with he | he <;> simp [he] at hu
  | stay => simp [h6] at hu
  | issued _ hc | failed _ _ hc | wrote _ hc => simp [h6, Upc.cmd?] at hc
  | delayLoaded _ hn | ticked _ hn | delayDone _ hn => simp [h6, Upc.delay?] at hn
  | accepted _ hat | initIssued hat | idIssued hat | statusIssued hat | burstIssued hat | idRead _ hat
  | statusRead _ hat | lineUp hat | lineDown hat | eraseEnded hat | drawn hat | doneChecked hat | finalEnded hat
  | queried hat => simp [h6] at hat

/-- Settles O46: the targets move by move; the two conditional transfers by what a `Transfer` and RST6 ask. -/
theorem controlTransfersAreListed : Obligations.ControlTransfersAreListed := by
  intro s t hrst hs
  obtain ⟨u, hm, rfl⟩ := step_move hs hrst
  rw [nextPort_upc, nextPort_att]
  exact ⟨hm.upc_mem_targets, hm.transfer.retry_of_rst0, hm.match_of_ers0⟩

/-! ### Steps that answer, and steps that are not enabled (40_sequencer.md R132) -/

theorem transact_ne_refused {onIssue : State → State} {want : Nat} {onOk : List Byte → State → State}
    {onErr : Nat → State → State} (s : State) (r : Refusal) : transact onIssue want onOk onErr s ≠ .refused r := by
  unfold transact xferDone
  split
  · nofun
  · split
    · nofun
    · nofun
    · split <;> nofun

theorem afterStep_ne_refused {o : Host.Outcome State Fault Refusal} {r : Refusal} (h : o ≠ .refused r) :
    afterStep o ≠ .refused r := by
  cases o <;> simp_all [afterStep]

/-- Every instruction that a step runs has a meaning. -/
theorem step_ne_refused (s : State) (r : Refusal) : step s ≠ .refused r := by
  cases hr : s.port.hwRst with
  | true => simp [step_hwRst hr]
  | false =>
    cases hc : s.upc.cmd? with
    | some c =>
      obtain ⟨_, _, _, hexec, -⟩ := exec_ofCmd_eq_transact hc
      rw [step_of_cmd hr hc, hexec]
      exact afterStep_ne_refused (transact_ne_refused s r)
    | none =>
      by_cases hu : s.upc = .idle
      · rw [step_at_idle hr hu, exec_decodeOp_of_idle hu]
        cases s.port.opValid <;> simp
      · simp [step_of_fetched_none hr (show fetched s = none by simp [fetched, hu, hc])]

/-- Settles O11: the one fault is a success of the wrong length, which the duty excludes. -/
theorem dutifulStepAnswersNext : Obligations.DutifulStepAnswersNext := by
  intro s hduty
  cases hs : step s with
  | next t => exact ⟨t, rfl⟩
  | fault f =>
    obtain ⟨-, hc, hp, b, hrsp, hlen, -⟩ := step_fault_iff.mp hs
    have hwaits := (waitsTransport_iff s).mpr ⟨hp, hc⟩
    exact absurd (by simpa [dutiful, hrsp, hwaits] using hduty) hlen
  | refused r => exact absurd hs (step_ne_refused s r)

/-- Settles O13: a state that enables no step stays. -/
theorem nothingEnabledNothingChanges : Obligations.NothingEnabledNothingChanges :=
  fun _ => step_of_not_enabled

/-! ### States that differ in their inputs -/

theorem sameMachine_iff {s t : State} : SameMachine s t ↔ ∃ p ps, t = { s with port := p, stim := ps } := by
  constructor
  · intro h
    rw [← (show _ = s from h)]
    exact ⟨t.port, t.stim, rfl⟩
  · rintro ⟨p, ps, rfl⟩
    rfl

theorem SameMachine.refl (s : State) : SameMachine s s := rfl

theorem SameMachine.symm {s t : State} (h : SameMachine s t) : SameMachine t s := by
  obtain ⟨p, ps, rfl⟩ := sameMachine_iff.mp h
  rfl

theorem SameMachine.trans {s t u : State} (h : SameMachine s t) (h' : SameMachine t u) : SameMachine s u := by
  obtain ⟨p, ps, rfl⟩ := sameMachine_iff.mp h
  obtain ⟨q, qs, rfl⟩ := sameMachine_iff.mp h'
  rfl

/-- Transitivity with the changed inputs on the left, where the states are known. -/
theorem SameMachine.congr_left {s s' t : State} (h : SameMachine s' t) (hs : SameMachine s s') : SameMachine s t :=
  hs.trans h

/-- What holds of all present and coming input levels, and of withdrawn events, holds after the inputs have moved on. -/
theorem forall_nextPort {P : Ports → Prop} (hquiet : ∀ p : Ports, P p.quiet) {s : State}
    (h : ∀ p ∈ s.port :: s.stim, P p) :
    ∀ p ∈ (nextPort s).port :: (nextPort s).stim, P p := by
  unfold nextPort
  split
  · next hnil => simpa [hnil] using hquiet s.port
  · next q qs hcons => exact fun p hp => h p (List.mem_cons_of_mem _ (hcons ▸ hp))

theorem run_succ {s t : State} (h : step s = .next t) (n : Nat) :
    Sys2Proof.core.run (n + 1) s = Sys2Proof.core.run n t := by
  simp only [Host.Core.run, Sys2Proof.core, h]

/-! ### Waiting without bound (40_sequencer.md R146, 20_memory.md R70) -/

/-- Inputs that never enable a step of these registers leave them as they are in a run of any length. -/
theorem run_of_never_enabled {P : Ports → Prop} (hquiet : ∀ p : Ports, P p.quiet) {s : State}
    (hdead : ∀ t, SameMachine s t → P t.port → enabled t = false) (hrst : ∀ p ∈ s.port :: s.stim, p.hwRst = false)
    (h : ∀ p ∈ s.port :: s.stim, P p) (n : Nat) : ∃ t, Sys2Proof.core.run n s = .next t ∧ SameMachine s t := by
  induction n generalizing s with
  | zero => exact ⟨s, rfl, .refl s⟩
  | succ n ih =>
    have hstep : step s = .next (nextPort s) :=
      step_of_not_enabled (hrst _ List.mem_cons_self) (hdead s (.refl s) (h _ List.mem_cons_self))
    have hstay := sameMachine_nextPort s
    obtain ⟨t, hrun, hsame⟩ := ih (fun t ht => hdead t (hstay.trans ht)) (forall_nextPort (fun _ => rfl) hrst)
      (forall_nextPort hquiet h)
    exact ⟨t, (run_succ hstep n).trans hrun, hstay.trans hsame⟩

theorem enabled_of_waitsTransport {s t : State} (hw : waitsTransport s = true) (h : SameMachine s t)
    (hr : t.port.rsp = none) : enabled t = false := by
  obtain ⟨p, ps, rfl⟩ := sameMachine_iff.mp h
  obtain ⟨hp, hc⟩ := (waitsTransport_iff s).mp hw
  obtain ⟨c, hc⟩ := Option.isSome_iff_exists.mp hc
  simpa [enabled, hp, hc] using hr

theorem waitsTick_iff (s : State) :
    waitsTick s = true ↔ s.ph = .wait ∧ (∃ n, s.upc.delay? s.cfg = some n) ∧ s.dly ≠ 0 := by
  simp [waitsTick, Option.isSome_iff_exists, and_assoc]

theorem enabled_of_waitsTick {s t : State} (hw : waitsTick s = true) (h : SameMachine s t)
    (ht : t.port.tick = false) : enabled t = false := by
  obtain ⟨p, ps, rfl⟩ := sameMachine_iff.mp h
  obtain ⟨hp, ⟨n, hn⟩, h0⟩ := (waitsTick_iff s).mp hw
  simpa [enabled, hp, Upc.cmd?_of_delay? hn, hn, h0] using ht

theorem enabled_of_idle {s t : State} (hu : s.upc = .idle) (h : SameMachine s t) (hv : t.port.opValid = false) :
    enabled t = false := by
  obtain ⟨p, ps, rfl⟩ := sameMachine_iff.mp h
  have hv : p.opValid = false := hv
  cases s.ph <;> simp [enabled, hu, hv, Upc.cmd?, Upc.delay?]

/-- Settles O14: in each of the three situations the event withheld is what would enable a step. -/
theorem waitsWithoutBound : Obligations.WaitsWithoutBound := by
  intro n s hrst hwait
  rcases hwait with ⟨hw, hrsp⟩ | ⟨hw, htick⟩ | ⟨hu, hop⟩
  · exact run_of_never_enabled (P := (·.rsp = none)) (fun _ => rfl) (fun _ => enabled_of_waitsTransport hw) hrst hrsp n
  · exact run_of_never_enabled (P := (·.tick = false)) (fun _ => rfl) (fun _ => enabled_of_waitsTick hw) hrst htick n
  · exact run_of_never_enabled (P := (·.opValid = false)) (fun _ => rfl) (fun _ => enabled_of_idle hu) hrst hop n

/-! ### What a step reads of the inputs (40_sequencer.md R132, R143, 30_encoding.md R92) -/

/-- The levels `p` agree with those on the ports of `s` wherever the situation of `s` reads one. -/
structure ReadsAgree (s : State) (p : Ports) : Prop where
  opValid : s.upc = .idle → p.opValid = s.port.opValid
  op : s.upc = .idle → s.port.opValid = true → p.op = s.port.op
  opLen : s.upc = .idle → s.port.opValid = true → s.port.op = 3 →
    lines s.cfg.lenW p.opLen = lines s.cfg.lenW s.port.opLen
  rsp : waitsTransport s = true → p.rsp = s.port.rsp
  tick : waitsTick s = true → p.tick = s.port.tick
  allocOk : s.upc = .upl2 → s.ph = .issue → p.allocOk = s.port.allocOk
  img : s.upc = .upl3 → s.ph = .issue → p.img = s.port.img

theorem ReadsAgree.rsp_of_wait {s : State} {p : Ports} {c : Cmd} (h : ReadsAgree s p) (hc : s.upc.cmd? = some c)
    (hp : s.ph = .wait) : p.rsp = s.port.rsp :=
  h.rsp ((waitsTransport_iff s).mpr ⟨hp, by rw [hc]; rfl⟩)

/-- Whether a step is enabled is decided by the levels that are read. -/
theorem ReadsAgree.enabled_eq {s : State} {p : Ports} (h : ReadsAgree s p) :
    enabled { s with port := p } = enabled s := by
  cases hp : s.ph with
  | issue =>
    by_cases hu : s.upc = .idle
    · simp [enabled, hp, h.opValid hu]
    · simp [enabled, hp, bne, beq_eq_false_iff_ne.mpr hu]
  | wait =>
    cases hc : s.upc.cmd? with
    | some c => simp [enabled, hp, hc, h.rsp_of_wait hc hp]
    | none =>
      cases hn : s.upc.delay? s.cfg with
      | some n =>
        by_cases h0 : s.dly = 0
        · simp [enabled, hp, hc, hn, h0]
        · simp [enabled, hp, hc, hn, h.tick ((waitsTick_iff s).mpr ⟨hp, ⟨n, hn⟩, h0⟩)]
      | none =>
        by_cases hu : s.upc = .idle
        · simp [enabled, hp, hc, hn, h.opValid hu]
        · simp [enabled, hp, hc, hn, beq_eq_false_iff_ne.mpr hu]

/-! #### The named operations read no input -/

theorem raiseError_setPort (e : ResCode) (d : Word) (s : State) (p : Ports) :
    raiseError e d { s with port := p } = { raiseError e d s with port := p } := by
  simp only [raiseError, retryOrFinish, retries]
  split_ifs <;> rfl

theorem retOk_setPort (s : State) (p : Ports) : retOk { s with port := p } = { retOk s with port := p } := by
  simp only [retOk]
  split_ifs <;> rfl

theorem acceptOp_setPort (op : BitVec 3) (n : Nat) (s : State) (p : Ports) :
    acceptOp op n { s with port := p } = { acceptOp op n s with port := p } := by
  unfold acceptOp
  split <;> rfl

/-- UPLOAD alone reads `op_len`. -/
theorem acceptOp_of_ne_upload {op : BitVec 3} (h : op ≠ 3) (n m : Nat) (s : State) :
    acceptOp op n s = acceptOp op m s := by
  simp only [acceptOp, if_neg h]

theorem microRst6_setPort (s : State) (p : Ports) :
    microRst6 { s with port := p } = { microRst6 s with port := p } := by
  simp only [microRst6, raiseError_setPort]
  split
  · exact retOk_setPort (advance .identified s) p
  · rfl

theorem microUpl5_setPort (s : State) (p : Ports) :
    microUpl5 { s with port := p } = { microUpl5 s with port := p } := by
  simp only [microUpl5, raiseError_setPort]
  split
  · exact retOk_setPort (advance .verified s) p
  · rfl

/-- The draw of UPL2 is the one input that an internal micro-operation reads. -/
theorem microUpl2_setPort {s : State} {p : Ports} (h : p.allocOk = s.port.allocOk) :
    microUpl2 { s with port := p } = { microUpl2 s with port := p } := by
  simp only [microUpl2, raiseError_setPort, h]
  split <;> rfl

/-- What is accepted depends on `op`, and on the LEN_W lines of `op_len` where `op` is UPLOAD. -/
theorem ReadsAgree.acceptOp_eq {s : State} {p : Ports} (h : ReadsAgree s p) (hu : s.upc = .idle)
    (hv : s.port.opValid = true) :
    acceptOp p.op (lines s.cfg.lenW p.opLen) { s with port := p } =
      { acceptOp s.port.op (portLen s) s with port := p } := by
  rw [acceptOp_setPort, h.op hu hv]
  by_cases h3 : s.port.op = 3
  · rw [h.opLen hu hv h3, portLen]
  · rw [acceptOp_of_ne_upload h3 _ (portLen s)]

/-- A move is made under any levels that agree where the situation reads them, to the same registers. -/
theorem Move.setPort {s u : State} {p : Ports} (hm : Move s u) (h : ReadsAgree s p) :
    Move { s with port := p } { u with port := p } := by
  cases hm with
  | stay hs => exact .stay (h.enabled_eq.trans hs)
  | accepted u hu hv he =>
    obtain rfl := eq_acceptOp hu he
    rw [← h.acceptOp_eq hu hv]
    exact .accepted _ hu ((h.opValid hu).trans hv) (exec_decodeOp_of_idle (s := { s with port := p }) hu _ _)
  | issued c hc hp hk => exact .issued c hc hp hk
  | initIssued hu hp => exact .initIssued hu hp
  | idIssued hu hp => exact .idIssued hu hp
  | statusIssued hu hp => exact .statusIssued hu hp
  | burstIssued hu hp =>
    have hburst : burstIssue { s with port := p } = { burstIssue s with port := p } := by
      simp only [burstIssue, h.img hu hp]
      rfl
    exact hburst ▸ .burstIssued hu hp
  | failed c code hc hp hr =>
    have hraise := raiseError_setPort .transport (errDetail s.cfg code) (answeredByError s) p
    exact hraise ▸ .failed c code hc hp ((h.rsp_of_wait hc hp).trans hr)
  | wrote c hc hp hr hk => exact .wrote c hc hp ((h.rsp_of_wait hc hp).trans hr) hk
  | idRead b hu hp hr hl => exact .idRead b hu hp ((h.rsp_of_wait (by rw [hu]; rfl) hp).trans hr) hl
  | statusRead b hu hp hr hl => exact .statusRead b hu hp ((h.rsp_of_wait (by rw [hu]; rfl) hp).trans hr) hl
  | delayLoaded n hn hp => exact .delayLoaded n hn hp
  | ticked n hn hp h0 ht =>
    exact .ticked n hn hp h0 ((h.tick ((waitsTick_iff s).mpr ⟨hp, ⟨n, hn⟩, h0⟩)).trans ht)
  | delayDone n hn hp h0 => exact .delayDone n hn hp h0
  | lineUp hu hp => exact .lineUp hu hp
  | lineDown hu hp => exact .lineDown hu hp
  | idChecked hu hp => exact microRst6_setPort s p ▸ .idChecked hu hp
  | eraseEnded hu hp => exact retOk_setPort (advance .erased s) p ▸ .eraseEnded hu hp
  | drawn hu hp => exact microUpl2_setPort (h.allocOk hu hp) ▸ .drawn hu hp
  | doneChecked hu hp => exact microUpl5_setPort s p ▸ .doneChecked hu hp
  | finalEnded hu hp => exact retOk_setPort (advance .complete { s with loaded := true }) p ▸ .finalEnded hu hp
  | queried hu hp => exact .queried hu hp

theorem sameMachine_nextPort_setPort (u : State) (p : Ports) :
    SameMachine (nextPort u) (nextPort { u with port := p }) :=
  have hport : SameMachine u { u with port := p } := rfl
  (sameMachine_nextPort u).symm.trans (hport.trans (sameMachine_nextPort _))

/-- Steps under levels that agree where the situation reads them have the same effect. -/
theorem ReadsAgree.step_next {s t : State} {p : Ports} (h : ReadsAgree s p) (hrst : p.hwRst = s.port.hwRst)
    (hs : step s = .next t) : ∃ t', step { s with port := p } = .next t' ∧ SameMachine t t' := by
  cases hr : s.port.hwRst with
  | true =>
    obtain rfl : nextPort (hwReset s) = t := by simpa [step_hwRst hr] using hs
    exact ⟨_, step_hwRst (hrst.trans hr), sameMachine_nextPort_setPort (hwReset s) p⟩
  | false =>
    obtain ⟨u, hm, rfl⟩ := step_move hs hr
    exact ⟨_, (hm.setPort h).step_eq (hrst.trans hr), sameMachine_nextPort_setPort u p⟩

/-- Settles O15: the premises are `ReadsAgree`. -/
theorem inputsAreReadWhereEnabled : Obligations.InputsAreReadWhereEnabled := by
  intro s t p hr hr' hopValid hop hopLen hrsp htick halloc himg hs
  exact ReadsAgree.step_next ⟨hopValid, hop, hopLen, hrsp, htick, halloc, himg⟩ (hr'.trans hr.symm) hs

/-! ### A busy block (40_sequencer.md R142) -/

theorem exec_hostOp_of_running {s : State} {i : Instr} (hrun : s.upc ≠ .idle) (hi : i.cmd? = none) :
    exec i s = .next s := by
  cases i with
  | queryState | reset | prepareErase | finalize | resetRetry | writeInit => exact congrArg _ (if_neg hrun)
  | upload | reserved111 => exact if_neg hrun
  | activate | iscEnable | iscErase | iscDisable | readIdcode | lscInit | lscBitstreamBurst | lscReadStatus => cases hi

/-- Outside IDLE the operation lines are not read. -/
theorem readsAgree_of_running {s : State} (hrun : s.upc ≠ .idle) (v : Bool) (o : BitVec 3) (l : Nat) :
    ReadsAgree s { s.port with opValid := v, op := o, opLen := l } :=
  ⟨fun hu => absurd hu hrun, fun hu => absurd hu hrun, fun hu => absurd hu hrun, fun _ => rfl, fun _ => rfl,
    fun _ _ => rfl, fun _ _ => rfl⟩

/-- Settles O18: an operation is taken in IDLE alone, and its lines are read there alone. -/
theorem busyBlockTakesNoOperation : Obligations.BusyBlockTakesNoOperation := by
  intro s hrun
  refine ⟨decide_eq_false hrun, fun i => exec_hostOp_of_running hrun, fun v o l t hs => ?_⟩
  exact (readsAgree_of_running hrun v o l).step_next rfl hs

/-! ### DELAY (40_sequencer.md R139) -/

theorem ticks_cons (p : Ports) (ps : List Ports) : ticks (p :: ps) = ticks [p] + ticks ps := by
  simp [ticks, List.filter_cons]
  split <;> simp [Nat.add_comm]

/-- A DELAY that has not drained takes off what the tick line gives. -/
theorem step_of_draining {s : State} {n : Nat} (hr : s.port.hwRst = false) (hn : s.upc.delay? s.cfg = some n)
    (hp : s.ph = .wait) (h0 : s.dly ≠ 0) :
    step s = .next (nextPort { s with dly := s.dly - ticks [s.port] }) := by
  cases ht : s.port.tick with
  | true => simp [(Move.ticked n hn hp h0 ht).step_eq hr, ticks, ht]
  | false =>
    have hwaits := (waitsTick_iff s).mpr ⟨hp, ⟨n, hn⟩, h0⟩
    simp [step_of_not_enabled hr (enabled_of_waitsTick hwaits (.refl s) ht), ticks, ht]

/-- The state in which a DELAY is left. -/
def drained (s : State) : State :=
  { s with dly := 0, upc := s.upc.next, ph := .issue }

theorem step_of_drained {s : State} {n : Nat} (hr : s.port.hwRst = false) (hn : s.upc.delay? s.cfg = some n)
    (hp : s.ph = .wait) (h0 : s.dly = 0) : step s = .next (nextPort (drained s)) := by
  rw [(Move.delayDone n hn hp h0).step_eq hr, drained, ← h0]
  rfl

/-- The inputs that a step with `k` more levels to come leaves: those levels, and no `hw_rst` if there was none. -/
theorem nextPort_inputs {s : State} {k : Nat} (hk : k ≤ s.stim.length)
    (hrst : ∀ p ∈ s.port :: s.stim, p.hwRst = false) :
    ∃ q qs, nextPort s = { s with port := q, stim := qs } ∧ k ≤ qs.length + 1 ∧ (q :: qs).take k = s.stim.take k ∧
      ∀ p ∈ q :: qs, p.hwRst = false := by
  have hrst' := forall_nextPort (P := (·.hwRst = false)) (fun _ => rfl) hrst
  unfold nextPort at hrst' ⊢
  split at hrst'
  · next hnil =>
    obtain rfl : k = 0 := by simpa [hnil] using hk
    exact ⟨_, _, rfl, Nat.zero_le _, rfl, hrst'⟩
  · next p ps hcons => exact ⟨p, ps, rfl, by simpa [hcons] using hk, by rw [hcons], hrst'⟩

/-- A DELAY that drains under any inputs: where it stands after `k` steps, the last tick having come no earlier than in
the last of them, and that it is left when the last tick has come. -/
theorem run_of_delay {n : Nat} (k : Nat) {s : State} (hn : s.upc.delay? s.cfg = some n) (hp : s.ph = .wait)
    (hrst : ∀ p ∈ s.port :: s.stim, p.hwRst = false) (hk : k ≤ s.stim.length + 1)
    (hle : ticks ((s.port :: s.stim).take k) ≤ s.dly)
    (hlt : k = 0 ∨ ticks ((s.port :: s.stim).take (k - 1)) < s.dly) :
    ∃ t, Sys2Proof.core.run k s = .next t ∧
      SameMachine { s with dly := s.dly - ticks ((s.port :: s.stim).take k) } t ∧
      (ticks ((s.port :: s.stim).take k) = s.dly →
        ∃ u, Sys2Proof.core.run (k + 1) s = .next u ∧ SameMachine (drained s) u) := by
  induction k generalizing s with
  | zero =>
    have hr := hrst _ List.mem_cons_self
    refine ⟨s, rfl, rfl, fun h0 => ⟨_, ?_, sameMachine_nextPort (drained s)⟩⟩
    rw [run_succ (step_of_drained hr hn hp h0.symm)]
    rfl
  | succ k ih =>
    have hr := hrst _ List.mem_cons_self
    have hlt : ticks ((s.port :: s.stim).take k) < s.dly := hlt.resolve_left (Nat.succ_ne_zero k)
    have hstep := step_of_draining hr hn hp (Nat.ne_zero_of_lt hlt)
    obtain ⟨q, qs, hnext, hk', htake, hrst'⟩ :=
      nextPort_inputs (s := { s with dly := s.dly - ticks [s.port] }) (Nat.le_of_succ_le_succ hk) hrst
    rw [hnext] at hstep
    rw [List.take_succ_cons, ticks_cons, ← htake] at hle ⊢
    have hlt' : k = 0 ∨ ticks ((q :: qs).take (k - 1)) < s.dly - ticks [s.port] := by
      cases k with
      | zero => exact .inl rfl
      | succ j =>
        have hearlier : (q :: qs).take j = s.stim.take j := by
          simpa only [List.take_take, Nat.min_eq_left (Nat.le_succ j)] using congrArg (List.take j) htake
        rw [List.take_succ_cons, ticks_cons, ← hearlier] at hlt
        exact .inr (by simp only [Nat.add_sub_cancel]; omega)
    obtain ⟨t, hrun, hsame, hleave⟩ := ih (s := { s with dly := s.dly - ticks [s.port], port := q, stim := qs })
      hn hp hrst' hk' (Nat.le_sub_of_add_le' hle) hlt'
    rw [run_succ hstep, run_succ hstep]
    refine ⟨t, hrun, ?_, fun hall => ?_⟩
    · rw [← Nat.sub_sub]
      exact hsame.congr_left rfl
    · obtain ⟨u, hrun', hdrained⟩ := hleave (Nat.eq_sub_of_add_eq' hall)
      exact ⟨u, hrun', hdrained.congr_left rfl⟩

/-- Settles O25: the four forms of a step of a DELAY, and the run by induction on its length. -/
theorem delayCountsTicks : Obligations.DelayCountsTicks := by
  intro s n hn hrst
  have hr := hrst _ List.mem_cons_self
  refine ⟨fun hp => (Move.delayLoaded n hn hp).step_eq hr, fun hp h0 ht => (Move.ticked n hn hp h0 ht).step_eq hr,
    fun hp h0 ht => ?_, fun hp h0 => (Move.delayDone n hn hp h0).step_eq hr,
    fun hp k hk hle hlt => run_of_delay k hn hp hrst hk hle hlt⟩
  exact step_of_not_enabled hr (enabled_of_waitsTick ((waitsTick_iff s).mpr ⟨hp, ⟨n, hn⟩, h0⟩) (.refl s) ht)

/-! #### Under a prompt environment (notes/assumptions/21.md) -/

/-- A DELAY shows at the step that leaves it. -/
theorem events_of_delay {s : State} {n : Nat} (hn : s.upc.delay? s.cfg = some n) (hr : s.port.hwRst = false)
    (t : State) : events s t = if s.ph = .wait ∧ s.dly = 0 then [.delay n] else [] := by
  have hc := Upc.cmd?_of_delay? hn
  have h0 : s.upc ≠ .rst0 := by rintro hu; simp [hu, Upc.delay?] at hn
  have h1 : s.upc ≠ .rst1 := by rintro hu; simp [hu, Upc.delay?] at hn
  have h2 : s.upc ≠ .rst2 := by rintro hu; simp [hu, Upc.delay?] at hn
  cases hp : s.ph <;> simp [events, hr, hp, hc, hn, h0, h1, h2]

/-- A step of a DELAY consumes no response. -/
theorem serve_succ_of_delay {s u : State} {n : Nat} (e : Script) (k : Nat) (hn : s.upc.delay? s.cfg = some n)
    (hs : step (drive e s) = .next u) :
    serve (k + 1) e s =
      (serve k e u).map (fun r => ((if s.ph = .wait ∧ s.dly = 0 then [.delay n] else []) ++ r.1, r.2)) := by
  have hafter : e.after s = e := by simp [Script.after, waitsTransport, Upc.cmd?_of_delay? hn]
  simp only [serve, hs, hafter]
  rw [events_of_delay (s := drive e s) hn rfl]
  rfl

/-- The steps of a DELAY that does not end yet show nothing. -/
theorem serve_succ_of_draining {s u : State} {n : Nat} (e : Script) (k : Nat) (hn : s.upc.delay? s.cfg = some n)
    (hs : step (drive e s) = .next u) (hp : ¬ (s.ph = .wait ∧ s.dly = 0)) : serve (k + 1) e s = serve k e u := by
  rw [serve_succ_of_delay e k hn hs, if_neg hp]
  simp

/-- Where a move under the prompt environment leads, but for the inputs. -/
theorem step_drive {s u v : State} {e : Script} (hm : Move (drive e s) u) (h : SameMachine v u) :
    ∃ q qs, step (drive e s) = .next { v with port := q, stim := qs } := by
  obtain ⟨q, qs, he⟩ := sameMachine_iff.mp (h.trans (sameMachine_nextPort u))
  exact ⟨q, qs, he ▸ hm.step_eq rfl⟩

/-- In WAIT with DLY = d the prompt environment gives d ticks, and the step after the last leaves. -/
theorem serve_of_wait {n : Nat} (e : Script) (d : Nat) {s : State} (hn : s.upc.delay? s.cfg = some n)
    (hp : s.ph = .wait) (hd : s.dly = d) :
    (∀ k, k < d + 1 → ∃ es t, serve k e s = some (es, t) ∧ t.upc = s.upc) ∧
    ∃ t, serve (d + 1) e s = some ([.delay n], t) ∧ SameMachine (drained s) t := by
  induction d generalizing s with
  | zero =>
    obtain ⟨q, qs, hstep⟩ : ∃ q qs, step (drive e s) = .next { drained s with port := q, stim := qs } :=
      step_drive (.delayDone n hn hp hd) (by rw [drained, ← hd]; rfl)
    refine ⟨fun k hk => ?_, { drained s with port := q, stim := qs }, ?_, rfl⟩
    · obtain rfl : k = 0 := Nat.lt_one_iff.mp hk
      exact ⟨_, s, rfl, rfl⟩
    · rw [serve_succ_of_delay e 0 hn hstep, if_pos ⟨hp, hd⟩]
      rfl
  | succ d ih =>
    have h0 : s.dly ≠ 0 := by omega
    have htick : (drive e s).port.tick = true := (waitsTick_iff s).mpr ⟨hp, ⟨n, hn⟩, h0⟩
    obtain ⟨q, qs, hstep⟩ := step_drive (v := { s with dly := s.dly - 1 }) (.ticked n hn hp h0 htick) rfl
    have hserve := fun k => serve_succ_of_draining e k hn hstep (fun h => h0 h.2)
    obtain ⟨hstays, hleaves⟩ := ih (s := { s with dly := s.dly - 1, port := q, stim := qs }) hn hp
      (Nat.sub_eq_of_eq_add hd)
    refine ⟨fun k hk => ?_, ?_⟩
    · cases k with
      | zero => exact ⟨_, s, rfl, rfl⟩
      | succ j =>
        rw [hserve]
        exact hstays j (Nat.lt_of_succ_lt_succ hk)
    · obtain ⟨t, hserved, hdrained⟩ := hleaves
      exact ⟨t, (hserve _).trans hserved, hdrained.congr_left rfl⟩

/-- Settles O24: the ISSUE, and the n + 1 steps of the WAIT. -/
theorem promptDelayTakesItsSteps : Obligations.PromptDelayTakesItsSteps := by
  intro s n e hp hn
  obtain ⟨q, qs, hstep⟩ := step_drive (v := { s with dly := n, ph := .wait }) (e := e) (.delayLoaded n hn hp) rfl
  have hserve := fun k => serve_succ_of_draining e k hn hstep (fun h => by simp [hp] at h)
  obtain ⟨hstays, t, hserved, hleft⟩ :=
    serve_of_wait e n (s := { s with dly := n, ph := .wait, port := q, stim := qs }) hn rfl rfl
  refine ⟨fun k hk => ?_, t, (hserve _).trans hserved, ?_⟩
  · cases k with
    | zero => exact ⟨_, s, rfl, rfl⟩
    | succ j =>
      rw [hserve]
      exact hstays j (Nat.lt_of_succ_lt_succ hk)
  · have hissue : { s with dly := 0, upc := s.upc.next } = drained s := by rw [drained, ← hp]
    rw [hissue]
    exact hleft.congr_left rfl

/-! ### The instruction at the program counter (40_sequencer.md R132, 30_encoding.md R91, R96) -/

/-- The bytes fetched in IDLE decode to the operation on the ports. -/
theorem decode_fetched_op {s : State} {bs : List Byte} {i : Instr} (hu : s.upc = .idle) (hf : fetchBytes s = some bs)
    (hd : decode s.cfg (fetchFormat s) bs = .ok i) : s.port.opValid = true ∧ i = decodeOp s.port.op (portLen s) := by
  rw [fetchBytes, if_pos hu] at hf
  rw [fetchFormat, if_pos hu] at hd
  split at hf
  · next hv =>
    obtain rfl := Option.some.inj hf
    rw [decode_opBytes _ (portLen_lt s)] at hd
    exact ⟨hv, (Except.ok.inj hd).symm⟩
  · cases hf

/-- The bytes fetched at a transport micro-operation decode to the command it sends, if no other has that frame. -/
theorem decode_fetched_frame {s : State} {bs : List Byte} {i : Instr} (hu : s.upc ≠ .idle)
    (hf : fetchBytes s = some bs) (hd : decode s.cfg (fetchFormat s) bs = .ok i)
    (hdistinct : s.cfg.cmd.distinct = true) : ∃ c, s.upc.cmd? = some c ∧ i = Instr.ofCmd c := by
  rw [fetchBytes, if_neg hu] at hf
  rw [fetchFormat, if_neg hu] at hd
  obtain ⟨c, hc, rfl⟩ := Option.map_eq_some_iff.mp hf
  exact ⟨c, hc, (Except.ok.inj ((decodeFrame_frame_of_distinct hdistinct c).symm.trans hd)).symm⟩

/-- Settles O10: what is decoded is what `fetched` selects, in IDLE and at a transport micro-operation. -/
theorem stepRunsTheDecodedInstruction : Obligations.StepRunsTheDecodedInstruction := by
  intro s bs i hr hf hd _ hplace
  have hstep : step s = afterStep (exec i s) := by
    by_cases hu : s.upc = .idle
    · obtain ⟨hv, rfl⟩ := decode_fetched_op hu hf hd
      rw [step_at_idle hr hu, if_pos hv]
    · obtain ⟨c, hc, rfl⟩ := decode_fetched_frame hu hf hd (hplace.resolve_left hu)
      exact step_of_cmd hr hc
  rw [hstep]
  exact ⟨fun t h => by rw [h]; rfl, fun f h => by rw [h]; rfl, fun r h => by rw [h]; rfl⟩

/-! ### Acceptance and dispatch (40_sequencer.md R133, R134) -/

theorem accept_of_idle {s : State} (hu : s.upc = .idle) (op : BitVec 3) (entry : Upc) :
    accept op entry s = { s with opr := op, att := 0, resValid := false, upc := entry, ph := .issue } :=
  if_pos hu

/-- Settles O16: IDLE takes the operation, whose arm of `exec` is an acceptance. -/
theorem acceptanceDispatches : Obligations.AcceptanceDispatches := by
  intro s hu
  refine ⟨fun hr hv => ⟨_, exec_decodeOp_of_idle hu _ _, ?_⟩, congrArg _ (accept_of_idle hu 0 .qry0),
    congrArg _ (accept_of_idle hu 1 .rst0), congrArg _ (accept_of_idle hu 2 .ers0), fun n => ?_,
    congrArg _ (accept_of_idle hu 4 .fin0), congrArg _ (accept_of_idle hu 5 .rst0),
    congrArg _ (accept_of_idle hu 6 .rst0)⟩
  · rw [step_at_idle hr hu, if_pos hv, exec_decodeOp_of_idle hu, afterStep_of_next]
  · have hlatched := accept_of_idle (s := { s with len := n, tot := n + s.cfg.prefixLen }) hu 3 .upl0
    exact (if_pos hu).trans (congrArg _ hlatched)

/-- Settles O17: IDLE takes the code and ends it. -/
theorem reservedCodeEndsAtOnce : Obligations.ReservedCodeEndsAtOnce :=
  fun _ hu => if_pos hu

/-! ### The two phases of a command (40_sequencer.md R136 to R140) -/

/-- A command runs at a micro-operation that sends it. -/
theorem atSender_of_upc {s : State} {c : Cmd} {u : Upc} (f : State → Host.Outcome State Fault Refusal) (hu : s.upc = u)
    (hc : u.cmd? = some c) : atSender c f s = f s :=
  if_pos (hu ▸ hc)

theorem transact_of_issue {onIssue : State → State} {want : Nat} {onOk : List Byte → State → State}
    {onErr : Nat → State → State} {s : State} (hp : s.ph = .issue) :
    transact onIssue want onOk onErr s = .next (onIssue s) := by
  simp [transact, hp]

theorem transact_of_success {onIssue : State → State} {want : Nat} {onOk : List Byte → State → State}
    {onErr : Nat → State → State} {s : State} {b : List Byte} (hp : s.ph = .wait) (hr : s.port.rsp = some (.ok b))
    (hl : b.length = want) : transact onIssue want onOk onErr s = .next (onOk b { s with xfq := none }) := by
  simp [transact, hp, xferDone, hr, hl]

theorem gotoNext_of_upc {s : State} {u : Upc} (hu : s.upc = u) :
    gotoNext s = { s with upc := u.next, ph := .issue } := by
  rw [← hu]
  rfl

/-- Settles O19: at each sender the ISSUE phase of the command's transaction. -/
theorem commandsIssueTheirFrame : Obligations.CommandsIssueTheirFrame := by
  intro s hp
  refine ⟨fun hu => ?_, fun hu => hu.elim (fun hu => ?_) (fun hu => ?_), fun hu => ?_, fun hu => ?_, fun hu => ?_,
    fun hu => ?_, fun hu => ?_⟩ <;>
    exact (atSender_of_upc _ hu rfl).trans (transact_of_issue hp)

/-- A write that succeeds completes its micro-operation. -/
theorem transact_of_written {onIssue : State → State} {onErr : Nat → State → State} {s : State} {u : Upc}
    (hp : s.ph = .wait) (hr : s.port.rsp = some (.ok [])) (hu : s.upc = u) :
    transact onIssue 0 (fun _ s => gotoNext s) onErr s = .next { s with xfq := none, upc := u.next, ph := .issue } :=
  (transact_of_success hp hr rfl).trans (congrArg _ (gotoNext_of_upc (s := { s with xfq := none }) hu))

/-- Settles O20: at each sender the WAIT phase of the command's transaction; the word is that of O6. -/
theorem commandsCompleteOnSuccess : Obligations.CommandsCompleteOnSuccess := by
  intro s hp
  refine ⟨fun hr => ?writes, fun b hr => ⟨fun hu hl => ?identity, fun hu hl => ?status⟩, fun k b0 b1 b2 b3 => ?word⟩
  case writes =>
    refine ⟨fun hu => ?_, fun hu => ?_, fun hu => ?_, fun hu => ?_, fun hu => ?_, fun hu => ?_, fun hu => ?_⟩ <;>
      exact (atSender_of_upc _ hu rfl).trans (transact_of_written hp hr hu)
  case identity =>
    refine (atSender_of_upc _ hu rfl).trans ((transact_of_success hp hr hl).trans ?_)
    exact congrArg _ (gotoNext_of_upc (s := { s with xfq := none, idr := readWord .readIdcode b }) hu)
  case status =>
    refine (atSender_of_upc _ hu rfl).trans ((transact_of_success hp hr hl).trans ?_)
    exact congrArg _ (gotoNext_of_upc (s := setStatus (readWord .lscReadStatus b) { s with xfq := none }) hu)
  case word =>
    obtain ⟨-, hword, hread⟩ := littleEndianWords b0 b1 b2 b3
    exact (hread k).trans hword

/-! ### The line and the ends of routines (40_sequencer.md R135, R141) -/

theorem line_of_issue {s : State} {u : Upc} (v : Bool) (hp : s.ph = .issue) (hu : s.upc = u) :
    line v s = { s with rstl := v, upc := u.next } := by
  rw [line, gotoNext_of_upc (s := { s with rstl := v }) hu, ← hp]

/-- Settles O23: the moves of RST0 and RST2. -/
theorem lineMicroOperations : Obligations.LineMicroOperations := by
  intro s hr hp
  refine ⟨fun hu => ?_, fun hu => ?_⟩
  · rw [(Move.lineUp hu hp).step_eq hr, microRst0,
      line_of_issue (s := { s with phase := .resetPending, loaded := false }) true hp hu]
    rfl
  · rw [(Move.lineDown hu hp).step_eq hr, microRst2, line_of_issue false hp hu]
    rfl

theorem finish_of_issue {s : State} (hp : s.ph = .issue) (e : ResCode) (d : Word) :
    finish e d s = { s with resCode := e, resDetail := d, resValid := true, xfq := none, upc := .idle } := by
  rw [finish, goto, ← hp]

/-- ENDOK ends the operation everywhere but at RST6, where WRITE_INIT goes on. -/
theorem endOk_of_issue {s : State} (hp : s.ph = .issue) (hu : s.upc ≠ .rst6) (p : Phase) :
    endOk p s =
      { s with
        phase := if s.phase = .failed then .failed else p
        resCode := .ok, resDetail := 0, resValid := true, xfq := none, upc := .idle } :=
  (if_neg fun h => hu h.2).trans (finish_of_issue (s := advance p s) hp .ok 0)

/-- Settles O31: the moves of ERS4, FIN1 and QRY0. -/
theorem routinesEndWithOk : Obligations.RoutinesEndWithOk := by
  intro s hr hp
  refine ⟨fun hu => ?_, fun hu => ?_, fun hu => ?_⟩
  · rw [(Move.eraseEnded hu hp).step_eq hr, microErs4, endOk_of_issue hp (by simp [hu])]
  · rw [(Move.finalEnded hu hp).step_eq hr, microFin1,
      endOk_of_issue (s := { s with loaded := true }) hp (by simp [hu])]
  · rw [(Move.queried hu hp).step_eq hr, microQry0, finish_of_issue hp]

end Sys2Proof.Machine

/-! PROOFS. The statements of 41_reset.md: what every step keeps of the reset line and PHASE in RST (R171), the identity
check (R177, R178), and RESET run to its end under a prompt environment (R170). -/

namespace Sys2Proof.Machine

/-! ### The reset line in RST (41_reset.md R171, 10_state.md R37) -/

/-- `LineInv` asks nothing outside RST, nor where RST begins. -/
theorem lineInv_of_entry {u : State} (h : u.upc.inRst = true → u.upc = .rst0) : LineInv u := by
  cases hu : u.upc <;> simp_all [LineInv, Upc.inRst]

theorem lineInv_raiseError (e : ResCode) (d : Word) (s : State) : LineInv (raiseError e d s) :=
  lineInv_of_entry fun hin => (raiseError_upc e d s).resolve_right (Upc.ne_idle_of_inRst hin)

theorem retOk_upc_not_inRst (s : State) : (retOk s).upc.inRst = false := by
  rcases retOk_cases s with ⟨-, -, he⟩ | ⟨-, he⟩ <;> rw [he] <;> rfl

theorem lineInv_retOk (s : State) : LineInv (retOk s) :=
  lineInv_of_entry fun hin => absurd hin (by simp [retOk_upc_not_inRst])

theorem routineEntry_of_inRst {op : BitVec 3} (h : (routineEntry op).inRst = true) : routineEntry op = .rst0 := by
  revert h
  revert op
  decide

/-- RST0 and RST2, which drive the line, send nothing. -/
theorem Upc.ne_line_of_cmd? {u : Upc} {k : Cmd} (h : u.cmd? = some k) : u ≠ .rst0 ∧ u ≠ .rst2 := by
  constructor <;> (rintro rfl; cases h)

/-- RST0 and RST2, which drive the line, wait for no tick. -/
theorem Upc.ne_line_of_delay? {u : Upc} {c : Config} {n : Nat} (h : u.delay? c = some n) :
    u ≠ .rst0 ∧ u ≠ .rst2 := by
  constructor <;> (rintro rfl; cases h)

/-- A micro-operation that completes without driving the line leaves it to the next one as that one needs it. -/
theorem LineInv.gotoNext {s : State} (h : LineInv s) (hline : s.upc ≠ .rst0 ∧ s.upc ≠ .rst2) :
    LineInv (gotoNext s) := by
  obtain ⟨hactive, hreleased, hphase⟩ := h
  cases hu : s.upc <;> simp_all [LineInv, Upc.next, Upc.inRst]

theorem Move.lineInv {s u : State} (h : LineInv s) (hm : Move s u) : LineInv u := by
  cases hm with
  | stay | issued | idIssued | statusIssued | burstIssued | delayLoaded | ticked => exact h
  | initIssued hu | queried hu => exact lineInv_of_entry (by simp [hu, Upc.inRst, microQry0])
  | accepted u hu hv he =>
    rw [eq_acceptOp hu he]
    exact lineInv_of_entry (by simpa using routineEntry_of_inRst)
  | failed => exact lineInv_raiseError _ _ _
  | wrote c hc => exact LineInv.gotoNext (s := { s with xfq := none }) h (Upc.ne_line_of_cmd? hc)
  | idRead b hu => exact LineInv.gotoNext (s := { s with xfq := none, idr := _ }) h (by simp [hu])
  | statusRead b hu => exact LineInv.gotoNext (s := setStatus _ { s with xfq := none }) h (by simp [hu])
  | delayDone n hn => exact h.gotoNext (Upc.ne_line_of_delay? hn)
  | lineUp hu => simp [LineInv, microRst0, hu, Upc.next]
  | lineDown hu =>
    obtain ⟨-, -, hphase⟩ := h
    simpa [LineInv, microRst2, hu, Upc.next, Upc.inRst] using hphase
  | idChecked =>
    unfold microRst6
    split
    · exact lineInv_retOk _
    · exact lineInv_raiseError _ _ _
  | doneChecked =>
    unfold microUpl5
    split
    · exact lineInv_retOk _
    · exact lineInv_raiseError _ _ _
  | drawn =>
    unfold microUpl2
    split
    · exact lineInv_of_entry nofun
    · exact lineInv_raiseError _ _ _
  | eraseEnded | finalEnded => exact lineInv_retOk _

/-- Settles O55: RST0 drives the line and RST2 releases it; every other step within RST leaves it and PHASE alone. -/
theorem stepKeepsLineInv : Obligations.StepKeepsLineInv :=
  step_keeps (fun s h => by simpa [LineInv] using h) (fun _ _ => lineInv_of_entry nofun) (fun _ _ => Move.lineInv)

/-! ### The identity check (41_reset.md R177, R178) -/

/-- Settles O26: a match ends as `ret_ok` says, which sends WRITE_INIT on to the erase. -/
theorem identityCheckDecides : Obligations.IdentityCheckDecides := by
  intro s hr hu hp
  rw [(Move.idChecked hu hp).step_eq hr, microRst6]
  refine ⟨fun hid h6 => ?_, fun hid h6 => ?_, fun hid => by rw [if_neg hid]⟩
  · have hon : retOk (advance .identified s) = goto .ers0 (advance .identified s) := if_pos ⟨h6, hu⟩
    rw [if_pos hid, hon, goto, ← hp]
    rfl
  · have hend : retOk (advance .identified s) = finish .ok 0 (advance .identified s) := if_neg fun h => h6 h.1
    rw [if_pos hid, hend, finish_of_issue (s := advance .identified s) hp]
    rfl

/-- The word of one byte repeated (41_reset.md R178). -/
theorem append_self_eq_mul (x : Byte) : x ++ x ++ x ++ x = x.setWidth 32 * 0x01010101 := by
  obtain ⟨hnat, hword, -⟩ := littleEndianWords x x x x
  rw [← hword]
  bv_omega

/-- A step of RST5 that reads, or of RST6 that checks, shows nothing. -/
theorem events_of_identity {s : State} (hr : s.port.hwRst = false)
    (hat : (s.upc = .rst5 ∧ s.ph = .wait) ∨ (s.upc = .rst6 ∧ s.ph = .issue)) (t : State) : events s t = [] := by
  rcases hat with ⟨hu, hp⟩ | ⟨hu, hp⟩ <;> simp [events, hr, hu, hp, Upc.cmd?, Upc.delay?]

theorem raiseError_of_not_retries {s : State} (h : retries s = false) (e : ResCode) (d : Word) :
    raiseError e d s = finish e d { s with phase := .failed } := by
  simp [raiseError, h, finish]

/-- RESET is never retried. -/
theorem retries_of_reset {s : State} (h : s.opr = 1) : retries s = false := by
  simp [retries, h]

/-- RST5 latches the word it reads and goes on to RST6. -/
theorem step_of_identity_read {s : State} {b : List Byte} (hr : s.port.hwRst = false) (hu : s.upc = .rst5)
    (hp : s.ph = .wait) (hrsp : s.port.rsp = some (.ok b)) (hl : b.length = s.cfg.idReadLen.toNat) :
    ∃ t, step s = .next t ∧ events s t = [] ∧ t.upc = .rst6 ∧ t.ph = .issue ∧ t.cfg = s.cfg ∧ t.opr = s.opr ∧
      t.idr = readWord .readIdcode b :=
  ⟨_, (Move.idRead b hu hp hrsp hl).step_eq hr, events_of_identity hr (.inl ⟨hu, hp⟩) _, by simp [hu, Upc.next],
    by simp, by simp, by simp, by simp⟩

/-- RST6 ends a RESET that has read another identity. -/
theorem step_of_identity_mismatch {s : State} (hr : s.port.hwRst = false) (hu : s.upc = .rst6) (hp : s.ph = .issue)
    (hop : s.opr = 1) (hne : s.idr ≠ s.cfg.expectedIdcode) :
    ∃ u, step s = .next u ∧ events s u = [] ∧ u.idr = s.idr ∧ EndedWith .identityMismatch s.idr u ∧
      u.phase = .failed := by
  obtain ⟨-, -, hmismatch⟩ := identityCheckDecides s hr hu hp
  have hstep := hmismatch hne
  rw [raiseError_of_not_retries (retries_of_reset hop)] at hstep
  exact ⟨_, hstep, events_of_identity hr (.inr ⟨hu, hp⟩) _, by simp, by simp [EndedWith], by simp⟩

/-- Settles O27: RST5 latches a word of equal bytes, which RST6 compares with an identity that is none. -/
theorem sentinelNeverPasses : Obligations.SentinelNeverPasses := by
  refine ⟨by decide, fun s v p hu hp hop hlen hid hr hrsp hpr => ?_⟩
  have hword : readWord .readIdcode [v, v, v, v] = v ++ v ++ v ++ v := by
    obtain ⟨-, hle, hread⟩ := littleEndianWords v v v v
    exact (hread _).trans hle
  obtain ⟨t, hread, hshown, htu, htp, hcfg, hopr, hidr⟩ := step_of_identity_read hr hu hp hrsp (by rw [hlen]; rfl)
  rw [hword] at hidr
  have hne : t.idr ≠ t.cfg.expectedIdcode := by
    rw [hidr, hcfg]
    exact (hid v).symm
  obtain ⟨u, hcheck, hshown', hkept, hended, hfailed⟩ :=
    step_of_identity_mismatch (s := { t with port := p }) hpr htu htp (hopr.trans hop) hne
  rw [append_self_eq_mul] at hidr
  exact ⟨t, u, hread, hshown, hidr, hcheck, hshown', hkept, hidr ▸ hended, hfailed⟩

/-! ### Runs under a prompt environment (notes/assumptions/21.md) -/

/-- In `k` steps the prompt environment takes `s` to `t`, showing `es` and leaving the script `e'`. -/
def Serves (k : Nat) (e : Script) (s : State) (es : List Event) (e' : Script) (t : State) : Prop :=
  ∀ n, serve (k + n) e s = (serve n e' t).map (fun r => (es ++ r.1, r.2))

theorem Serves.serve_eq {k : Nat} {e e' : Script} {s t : State} {es : List Event} (h : Serves k e s es e' t) :
    serve k e s = some (es, t) := by
  simpa [serve] using h 0

theorem Serves.trans {k k' : Nat} {e e' e'' : Script} {s t u : State} {es es' : List Event}
    (h : Serves k e s es e' t) (h' : Serves k' e' t es' e'' u) : Serves (k + k') e s (es ++ es') e'' u := by
  intro n
  rw [Nat.add_assoc, h, h', Option.map_map]
  simp [Function.comp_def]

theorem Serves.of_eq {k k' : Nat} {e e' : Script} {s t : State} {es : List Event} (h : Serves k e s es e' t)
    (hk : k = k') : Serves k' e s es e' t :=
  hk ▸ h

/-- One step of a run. -/
theorem serves_of_step {e : Script} {s t : State} (hs : step (drive e s) = .next t) :
    Serves 1 e s (events (drive e s) t) (e.after s) t := by
  intro n
  rw [Nat.add_comm, serve, hs]

/-- A run that sends nothing on its way leaves its script. -/
theorem serves_of_serve {k : Nat} {e : Script} {s t : State} {es : List Event} (h : serve k e s = some (es, t))
    (hquiet : ∀ j < k, ∃ fs u, serve j e s = some (fs, u) ∧ u.upc.cmd? = none) : Serves k e s es e t := by
  induction k generalizing s es with
  | zero =>
    obtain ⟨rfl, rfl⟩ : [] = es ∧ s = t := by simpa [serve] using h
    intro n
    simp
  | succ k ih =>
    have hc : s.upc.cmd? = none := by
      obtain ⟨_, _, h0, hc⟩ := hquiet 0 (Nat.succ_pos k)
      obtain ⟨-, rfl⟩ : [] = _ ∧ s = _ := by simpa [serve] using h0
      exact hc
    cases hs : step (drive e s) with
    | fault => simp [serve, hs] at h
    | refused => simp [serve, hs] at h
    | next v =>
      have hone := serves_of_step hs
      rw [show e.after s = e by simp [Script.after, waitsTransport, hc]] at hone
      rw [Nat.add_comm, hone] at h
      obtain ⟨⟨fs, _⟩, hrest, he⟩ := Option.map_eq_some_iff.mp h
      obtain ⟨rfl, rfl⟩ : _ ++ fs = es ∧ _ = t := by simpa using he
      refine (hone.trans (ih hrest fun j hj => ?_)).of_eq (Nat.add_comm 1 k)
      obtain ⟨_, u, hu, hc⟩ := hquiet (j + 1) (Nat.succ_lt_succ hj)
      rw [Nat.add_comm, hone] at hu
      obtain ⟨⟨gs, _⟩, hx, he⟩ := Option.map_eq_some_iff.mp hu
      obtain ⟨-, rfl⟩ : _ ∧ _ = u := by simpa using he
      exact ⟨gs, _, hx, hc⟩

/-- A DELAY, from its ISSUE to the next micro-operation. -/
theorem serves_delay {s : State} {n : Nat} (e : Script) (hp : s.ph = .issue) (hn : s.upc.delay? s.cfg = some n) :
    ∃ q qs, Serves (n + 2) e s [.delay n] e { s with dly := 0, upc := s.upc.next, port := q, stim := qs } := by
  obtain ⟨hstays, t, hserved, hsame⟩ := promptDelayTakesItsSteps s n e hp hn
  obtain ⟨q, qs, rfl⟩ := sameMachine_iff.mp hsame
  refine ⟨q, qs, serves_of_serve hserved fun j hj => ?_⟩
  obtain ⟨fs, u, hu, hupc⟩ := hstays j hj
  exact ⟨fs, u, hu, hupc ▸ Upc.cmd?_of_delay? hn⟩

/-- An ISSUE phase consumes no response. -/
theorem Script.after_of_issue {e : Script} {s : State} (hp : s.ph = .issue) : e.after s = e := by
  simp [Script.after, waitsTransport, hp]

theorem nextPort_eq (s : State) : ∃ q qs, nextPort s = { s with port := q, stim := qs } :=
  sameMachine_iff.mp (sameMachine_nextPort s)

/-! #### Transactions (40_sequencer.md R136 to R140) -/

theorem events_of_issue {s : State} {c : Cmd} (hr : s.port.hwRst = false) (hc : s.upc.cmd? = some c)
    (hp : s.ph = .issue) (t : State) : events s t = t.xfq.toList.map Event.request := by
  simp [events, hr, hp, hc, Upc.ne_line_of_cmd? hc]

/-- An answer shows on the line alone, where RST1 releases it (41_reset.md R173). -/
theorem events_of_answer {s : State} {c : Cmd} (hr : s.port.hwRst = false) (hc : s.upc.cmd? = some c)
    (hp : s.ph = .wait) (t : State) :
    events s t = if s.upc = .rst1 ∧ s.rstl = true ∧ t.rstl = false then [.line false] else [] := by
  simp [events, hr, hp, Upc.delay?_of_cmd? hc]

theorem events_of_line {s : State} (hr : s.port.hwRst = false) (hp : s.ph = .issue)
    (hu : s.upc = .rst0 ∨ s.upc = .rst2) (t : State) : events s t = [.line t.rstl] := by
  simp [events, hr, hp, hu]

/-- The ISSUE of a request, which reads no response. -/
theorem serves_issue {e : Script} {s : State} {c : Cmd} {r : Request} (hc : s.upc.cmd? = some c) (hp : s.ph = .issue)
    (hm : Move (drive e s) (xferIssue r (drive e s))) :
    ∃ q qs, Serves 1 e s [.request r] e { s with ph := .wait, xfq := some r, port := q, stim := qs } := by
  obtain ⟨q, qs, hs⟩ := step_drive (v := { s with ph := .wait, xfq := some r }) hm rfl
  have hone := serves_of_step hs
  rw [events_of_issue (s := drive e s) rfl hc hp, Script.after_of_issue hp] at hone
  exact ⟨q, qs, hone⟩

/-- The WAIT that consumes a response. -/
theorem serves_answer {e : Script} {s u : State} {c : Cmd} {x : Rsp} {rest : List Rsp} (hc : s.upc.cmd? = some c)
    (hp : s.ph = .wait) (he : e.rsps = x :: rest)
    (hm : (drive e s).port.rsp = some x → Move (drive e s) u) :
    Serves 1 e s (if s.upc = .rst1 ∧ s.rstl = true ∧ u.rstl = false then [.line false] else [])
      { e with rsps := rest } (nextPort u) := by
  have hrsp : (drive e s).port.rsp = some x := by simp [drive, waitsTransport, hc, hp, he]
  have hone := serves_of_step ((hm hrsp).step_eq rfl)
  rw [events_of_answer (s := drive e s) rfl hc hp, nextPort_rstl,
    show e.after s = { e with rsps := rest } by simp [Script.after, waitsTransport, hc, hp, he]] at hone
  exact hone

/-- A success shows nothing and goes on. -/
theorem serves_success {e : Script} {s v : State} {c : Cmd} {x : Rsp} {rest : List Rsp} (hc : s.upc.cmd? = some c)
    (hp : s.ph = .wait) (he : e.rsps = x :: rest)
    (hm : (drive e s).port.rsp = some x → Move (drive e s) (gotoNext v)) (hline : v.rstl = s.rstl) :
    ∃ q qs, Serves 1 e s [] { e with rsps := rest }
      { v with upc := v.upc.next, ph := .issue, port := q, stim := qs } := by
  have hanswer := serves_answer hc hp he hm
  rw [if_neg (by simp [hline])] at hanswer
  obtain ⟨q, qs, hnext⟩ := nextPort_eq (gotoNext v)
  exact ⟨q, qs, hnext ▸ hanswer⟩

/-- What an error shows: RST1 releases the line if RST_ON_ABORT says so (41_reset.md R173). -/
def abortEvents (s : State) : List Event :=
  if s.upc = .rst1 ∧ s.rstl = true ∧ s.cfg.rstOnAbort = .release then [.line false] else []

/-- The WAIT that an error ends. -/
theorem serves_error {e : Script} {s : State} {c : Cmd} {code : Nat} {rest : List Rsp} (hc : s.upc.cmd? = some c)
    (hp : s.ph = .wait) (he : e.rsps = .err code :: rest) :
    Serves 1 e s (abortEvents s) { e with rsps := rest }
      (nextPort (raiseTransport code (answeredByError (drive e s)))) := by
  have hanswer := serves_answer (u := raiseTransport code (answeredByError (drive e s))) hc hp he (.failed c code hc hp)
  have hreleases : (s.upc = .rst1 ∧ s.rstl = true ∧ (answeredByError (drive e s)).rstl = false) ↔
      s.upc = .rst1 ∧ s.rstl = true ∧ s.cfg.rstOnAbort = .release := by
    simp +contextual [answeredByError, drive]
  rwa [raiseTransport_rstl, if_congr hreleases rfl rfl] at hanswer

/-- A transaction that the Transport answers with an error. -/
theorem serves_failing {e : Script} {s : State} {c : Cmd} {r : Request} {code : Nat} {rest : List Rsp}
    (hc : s.upc.cmd? = some c) (hp : s.ph = .issue) (hm : Move (drive e s) (xferIssue r (drive e s)))
    (he : e.rsps = .err code :: rest) :
    ∃ q qs, Serves 2 e s ([.request r] ++ abortEvents s) { e with rsps := rest }
      (nextPort (raiseTransport code { answeredByError s with ph := .wait, port := q, stim := qs })) := by
  obtain ⟨q, qs, hissue⟩ := serves_issue hc hp hm
  exact ⟨_, _, hissue.trans
    (serves_error (s := { s with ph := .wait, xfq := some r, port := q, stim := qs }) hc rfl he)⟩

/-- A SEND that succeeds. -/
theorem serves_write {e : Script} {s : State} {c : Cmd} {rest : List Rsp} (hc : s.upc.cmd? = some c)
    (hp : s.ph = .issue) (hk : c = .activate ∨ c = .iscEnable ∨ c = .iscErase ∨ c = .iscDisable)
    (he : e.rsps = .ok [] :: rest) :
    ∃ q qs, Serves 2 e s [.request (writeReq s.cfg c)] { e with rsps := rest }
      { s with xfq := none, upc := s.upc.next, ph := .issue, port := q, stim := qs } := by
  obtain ⟨q, qs, hissue⟩ := serves_issue (e := e) hc hp (.issued c hc hp hk)
  obtain ⟨q', qs', hanswer⟩ := serves_success
    (s := { s with ph := .wait, xfq := some (writeReq s.cfg c), port := q, stim := qs }) hc rfl he
    (.wrote c hc rfl · (by rcases hk with rfl | rfl | rfl | rfl <;> decide)) rfl
  exact ⟨q', qs', hissue.trans hanswer⟩

/-- The identity read, from its ISSUE to RST6 (41_reset.md R176). -/
theorem serves_identity_read {e : Script} {s : State} {b : List Byte} {rest : List Rsp} (hu : s.upc = .rst5)
    (hp : s.ph = .issue) (hl : b.length = s.cfg.idReadLen.toNat) (he : e.rsps = .ok b :: rest) :
    ∃ q qs, Serves 2 e s [.request (writeReadReq s.cfg .readIdcode s.cfg.idReadLen)] { e with rsps := rest }
      { s with xfq := none, idr := readWord .readIdcode b, upc := .rst6, ph := .issue, port := q, stim := qs } := by
  have hc : s.upc.cmd? = some .readIdcode := by rw [hu]; rfl
  have hnext : s.upc.next = .rst6 := by rw [hu]; rfl
  obtain ⟨q, qs, hissue⟩ := serves_issue (e := e) hc hp (.idIssued hu hp)
  obtain ⟨q', qs', hread⟩ := serves_success
    (s := { s with
      ph := .wait, xfq := some (writeReadReq s.cfg .readIdcode s.cfg.idReadLen), port := q, stim := qs }) hc rfl he
    (.idRead b hu rfl · hl) rfl
  exact ⟨q', qs', hnext ▸ hissue.trans hread⟩

/-! ### One attempt (41_reset.md R170) -/

/-- `s` at RST1: the line is driven and a run has begun (41_reset.md R172). -/
def activating (s : State) : State :=
  { s with rstl := true, phase := .resetPending, loaded := false, upc := .rst1 }

/-- `s` at RST4: ACTIVATE has been sent, the line released and the settling delay has passed (41_reset.md R174). -/
def settled (s : State) : State :=
  { activating s with rstl := false, dly := 0, xfq := none, upc := .rst4, ph := .issue }

theorem serves_line_up {s : State} (e : Script) (hu : s.upc = .rst0) (hp : s.ph = .issue) :
    ∃ q qs, Serves 1 e s [.line true] e { activating s with port := q, stim := qs } := by
  obtain ⟨hup, -⟩ := lineMicroOperations (drive e s) rfl hp
  obtain ⟨q, qs, hnext⟩ := nextPort_eq (activating (drive e s))
  have hone := serves_of_step (e := e) (t := { activating s with port := q, stim := qs })
    ((hup hu).trans (congrArg _ hnext))
  rw [Script.after_of_issue hp, events_of_line (s := drive e s) rfl hp (.inl hu)] at hone
  exact ⟨q, qs, hone⟩

theorem serves_line_down {s : State} (e : Script) (hu : s.upc = .rst2) (hp : s.ph = .issue) :
    ∃ q qs, Serves 1 e s [.line false] e { s with rstl := false, upc := .rst3, port := q, stim := qs } := by
  obtain ⟨-, hdown⟩ := lineMicroOperations (drive e s) rfl hp
  obtain ⟨q, qs, hnext⟩ := nextPort_eq { drive e s with rstl := false, upc := .rst3 }
  have hone := serves_of_step (e := e) (t := { s with rstl := false, upc := .rst3, port := q, stim := qs })
    ((hdown hu).trans (congrArg _ hnext))
  rw [Script.after_of_issue hp, events_of_line (s := drive e s) rfl hp (.inr hu)] at hone
  exact ⟨q, qs, hone⟩

/-- RST6, which decides the attempt. -/
theorem serves_check {s : State} (e : Script) (hu : s.upc = .rst6) (hp : s.ph = .issue) :
    Serves 1 e s [] e (nextPort (microRst6 (drive e s))) := by
  have hone := serves_of_step (e := e) ((Move.idChecked (s := drive e s) hu hp).step_eq rfl)
  rwa [Script.after_of_issue hp, events_of_identity (s := drive e s) rfl (.inr ⟨hu, hp⟩)] at hone

/-- From RST0 to RST4. -/
theorem serves_settle {e : Script} {s : State} {rest : List Rsp} (hu : s.upc = .rst0) (hp : s.ph = .issue)
    (he : e.rsps = .ok [] :: rest) :
    ∃ q qs, Serves (s.cfg.tResetSettle + 6) e s
      [.line true, .request (writeReq s.cfg .activate), .line false, .delay s.cfg.tResetSettle]
      { e with rsps := rest } { settled s with port := q, stim := qs } := by
  obtain ⟨q, qs, hup⟩ := serves_line_up e hu hp
  obtain ⟨q, qs, hactivate⟩ := serves_write (s := { activating s with port := q, stim := qs }) rfl hp (.inl rfl) he
  obtain ⟨q, qs, hdown⟩ := serves_line_down (s := { activating s with
    xfq := none, upc := .rst2, ph := .issue, port := q, stim := qs }) { e with rsps := rest } rfl rfl
  obtain ⟨q, qs, hdelay⟩ := serves_delay (s := { activating s with
    xfq := none, rstl := false, upc := .rst3, ph := .issue, port := q, stim := qs }) { e with rsps := rest } rfl rfl
  exact ⟨q, qs, (((hup.trans hactivate).trans hdown).trans hdelay).of_eq (by simp only [activating]; omega)⟩

/-- From RST0 to RST5: `settled s` and ISC_ENABLE sent. -/
theorem serves_enable {e : Script} {s : State} {rest : List Rsp} (hu : s.upc = .rst0) (hp : s.ph = .issue)
    (he : e.rsps = .ok [] :: .ok [] :: rest) :
    ∃ q qs, Serves (s.cfg.tResetSettle + 8) e s
      [.line true, .request (writeReq s.cfg .activate), .line false, .delay s.cfg.tResetSettle,
        .request (writeReq s.cfg .iscEnable)]
      { e with rsps := rest } { settled s with upc := .rst5, port := q, stim := qs } := by
  obtain ⟨q, qs, hsettle⟩ := serves_settle hu hp he
  obtain ⟨q, qs, hwrite⟩ := serves_write (e := { e with rsps := .ok [] :: rest })
    (s := { settled s with port := q, stim := qs }) rfl rfl (.inr (.inl rfl)) rfl
  exact ⟨q, qs, hsettle.trans hwrite⟩

/-- The end of an attempt, from the state in which its last micro-operation decides it (41_reset.md R170). -/
def Attempt.conclude (a : Attempt) (v : State) : State :=
  match a.error v.cfg with
  | none => retOk (advance .identified v)
  | some x => raiseError x.1 x.2 v

theorem microRst6_eq_conclude {s : State} (b : List Byte) (hid : s.idr = readWord .readIdcode b) :
    microRst6 s = (Attempt.identity b).conclude s := by
  by_cases hmatch : readWord .readIdcode b = s.cfg.expectedIdcode <;>
    simp [microRst6, Attempt.conclude, Attempt.error, hid, hmatch]

/-- What the attempt `a`, begun in `s`, has made of the registers in the state `v` that decides it. -/
structure Attempt.Decided (a : Attempt) (s v : State) : Prop where
  inRst : v.upc.inRst = true
  matched : a.error s.cfg = none → v.upc = .rst6
  opr : v.opr = s.opr
  att : v.att = s.att
  phase : v.phase = .resetPending
  loaded : v.loaded = false
  rstl : v.rstl = a.rstl s.cfg
  idr : v.idr = a.idr s.idr
  data : UploadPartEq s v

/-- One attempt, by its first request that fails or by the identity read. -/
theorem serves_attempt {e : Script} {s : State} {a : Attempt} {rest : List Rsp} (hu : s.upc = .rst0)
    (hp : s.ph = .issue) (hfits : a.fits s.cfg = true) (he : e.rsps = a.rsps ++ rest) :
    ∃ v, a.Decided s v ∧
      Serves (a.steps s.cfg) e s (a.trace s.cfg) { e with rsps := rest } (nextPort (a.conclude v)) := by
  cases a with
  | activateFails code =>
    obtain ⟨q, qs, hup⟩ := serves_line_up e hu hp
    obtain ⟨q, qs, hfail⟩ := serves_failing (e := e) (s := { activating s with port := q, stim := qs })
      (c := .activate) rfl hp (.issued _ rfl hp (.inl rfl)) he
    rw [show abortEvents _ = if s.cfg.rstOnAbort = .release then [.line false] else [] by
      simp [abortEvents, activating]] at hfail
    refine ⟨_, ?_, hup.trans hfail⟩
    have hline : (answeredByError (activating s)).rstl = decide (s.cfg.rstOnAbort = .hold) := by
      cases h : s.cfg.rstOnAbort <;> simp [answeredByError, activating, h]
    exact ⟨rfl, nofun, rfl, rfl, rfl, rfl, hline, rfl, ⟨rfl, rfl, rfl, rfl, rfl, rfl, rfl, rfl, rfl⟩⟩
  | enableFails code =>
    obtain ⟨q, qs, hsettle⟩ := serves_settle hu hp he
    obtain ⟨q, qs, hfail⟩ := serves_failing (e := { e with rsps := .err code :: rest })
      (s := { settled s with port := q, stim := qs })
      (c := .iscEnable) rfl rfl (.issued _ rfl rfl (.inr (.inl rfl))) rfl
    refine ⟨_, ?_, hsettle.trans hfail⟩
    exact ⟨rfl, nofun, rfl, rfl, rfl, rfl, rfl, rfl, ⟨rfl, rfl, rfl, rfl, rfl, rfl, rfl, rfl, rfl⟩⟩
  | readFails code =>
    obtain ⟨q, qs, henable⟩ := serves_enable hu hp he
    obtain ⟨q, qs, hfail⟩ := serves_failing (e := { e with rsps := .err code :: rest })
      (s := { settled s with upc := .rst5, port := q, stim := qs })
      (c := .readIdcode) rfl rfl (.idIssued rfl rfl) rfl
    refine ⟨_, ?_, henable.trans hfail⟩
    exact ⟨rfl, nofun, rfl, rfl, rfl, rfl, rfl, rfl, ⟨rfl, rfl, rfl, rfl, rfl, rfl, rfl, rfl, rfl⟩⟩
  | identity b =>
    obtain ⟨q, qs, henable⟩ := serves_enable hu hp he
    obtain ⟨q, qs, hread⟩ := serves_identity_read (e := { e with rsps := .ok b :: rest })
      (s := { settled s with upc := .rst5, port := q, stim := qs }) rfl rfl (beq_iff_eq.mp hfits) rfl
    have hcheck := serves_check { e with rsps := rest } (s := { settled s with
      idr := readWord .readIdcode b, upc := .rst6, ph := .issue, port := q, stim := qs }) rfl rfl
    rw [microRst6_eq_conclude b rfl] at hcheck
    refine ⟨_, ?_, (henable.trans hread).trans hcheck⟩
    exact ⟨rfl, fun _ => rfl, rfl, rfl, rfl, rfl, rfl, rfl, ⟨rfl, rfl, rfl, rfl, rfl, rfl, rfl, rfl, rfl⟩⟩

/-! ### RESET (41_reset.md R170) -/

/-- RESET, which is not tried again, ends with its attempt. -/
theorem conclude_of_reset {a : Attempt} {v : State} (hop : v.opr = 1) :
    (a.error v.cfg = none → a.conclude v = finish .ok 0 (advance .identified v)) ∧
      ∀ x, a.error v.cfg = some x → a.conclude v = finish x.1 x.2 { v with phase := .failed } := by
  refine ⟨fun hnone => ?_, fun x hx => ?_⟩
  · rw [Attempt.conclude, hnone]
    exact if_neg fun h => by simp [hop] at h
  · rw [Attempt.conclude, hx]
    exact raiseError_of_not_retries (retries_of_reset hop) _ _

theorem Attempt.conclude_sameData (a : Attempt) (v : State) : SameData v (a.conclude v) := by
  unfold Attempt.conclude
  split
  · exact sameData_endOk _ v
  · exact sameData_raiseError _ _ v

theorem sameOp_conclude_of_reset {a : Attempt} {v : State} (hop : v.opr = 1) : SameOp v (a.conclude v) := by
  obtain ⟨hmatch, herror⟩ := conclude_of_reset (a := a) hop
  cases h : a.error v.cfg with
  | none => rw [hmatch h]; exact ⟨rfl, rfl⟩
  | some x => rw [herror x h]; exact ⟨rfl, rfl⟩

theorem SameData.uploadPartEq {s v u : State} (h : SameData v u) (hv : UploadPartEq s v) : UploadPartEq s u := by
  rwa [UploadPartEq, h.cfg, h.len, h.tot, h.off, h.cl, h.sr, h.doneF, h.busyF, h.failF]

/-- Settles O41: the attempt that RESET begins, and the result in which it ends. -/
theorem resetRuns : Obligations.ResetRuns := by
  intro s e a rest hu hfits he
  obtain ⟨v, hv, hserves⟩ := serves_attempt
    (s := { s with opr := 1, att := 0, resValid := false, upc := .rst0, ph := .issue }) rfl rfl hfits he
  obtain ⟨-, -, hexec, -⟩ := acceptanceDispatches s hu
  have hdata := a.conclude_sameData v
  have hop := sameOp_conclude_of_reset (a := a) hv.opr
  obtain ⟨hmatch, herror⟩ := conclude_of_reset (a := a) hv.opr
  obtain ⟨hcfg, -⟩ := hv.data
  rw [← hcfg] at hmatch herror
  refine ⟨_, hexec, _, hserves.serve_eq, fun hnone => ?_, fun x hx => ?_, ?_, ?_, ?_, ?_, ?_, ?_⟩
  · rw [hmatch hnone]
    simp [EndedWith, hv.phase]
  · rw [herror x hx]
    simp [EndedWith]
  · simp [hop.opr, hv.opr]
  · simp [hop.att, hv.att]
  · simp [hdata.loaded, hv.loaded]
  · simp [hdata.rstl, hv.rstl]
  · simp [hdata.idr, hv.idr]
  · simpa [UploadPartEq] using hdata.uploadPartEq hv.data

end Sys2Proof.Machine

/-! PROOFS. The statements of 42_prepare_erase.md: routine ERS, run from ERS0 to its end under a prompt environment
whichever operation entered it, and PREPARE_ERASE with it (R190). -/

namespace Sys2Proof.Machine

/-! ### A transaction that fails outside RST -/

/-- Outside RST an error ends the operation at once, and no line is released (60_exceptions.md R280). -/
theorem serves_failing_outside_rst {e : Script} {s : State} {c : Cmd} {r : Request} {code : Nat} {rest : List Rsp}
    (hc : s.upc.cmd? = some c) (hout : s.upc.inRst = false) (hp : s.ph = .issue)
    (hm : Move (drive e s) (xferIssue r (drive e s))) (he : e.rsps = .err code :: rest) :
    ∃ q qs, Serves 2 e s [.request r] { e with rsps := rest }
      { finish .transport (errDetail s.cfg code) { s with phase := .failed } with port := q, stim := qs } := by
  have hne : s.upc ≠ .rst1 := by
    intro h
    simp [h, Upc.inRst] at hout
  obtain ⟨q, qs, hfail⟩ := serves_failing hc hp hm he
  rw [abortEvents, if_neg (fun h => hne h.1), answeredByError_of_ne_rst1 hne, raiseTransport_eq,
    raiseError_of_not_retries (by simp [retries, hout])] at hfail
  obtain ⟨q', qs', hnext⟩ := nextPort_eq (finish .transport (errDetail s.cfg code)
    { s with xfq := none, ph := .wait, port := q, stim := qs, phase := .failed })
  exact ⟨q', qs', hnext ▸ hfail⟩

/-! ### One erase run (42_prepare_erase.md R190) -/

/-- The end of the erase run `r` begun in `s`, but for DLY: PHASE keeps FAILED even when the run succeeds. -/
def EraseRun.ended (r : EraseRun) (s : State) : State :=
  finish (r.result s.cfg).1 (r.result s.cfg).2
    { s with phase := if r = .done ∧ s.phase ≠ .failed then .erased else .failed }

/-- A SEND that succeeds and the DELAY after it, as ERS0 to ERS2 and ERS2 to ERS4 (42_prepare_erase.md R191). -/
theorem serves_write_delay {e : Script} {s : State} {c : Cmd} {n : Nat} {rest : List Rsp} (hc : s.upc.cmd? = some c)
    (hn : s.upc.next.delay? s.cfg = some n) (hp : s.ph = .issue)
    (hk : c = .activate ∨ c = .iscEnable ∨ c = .iscErase ∨ c = .iscDisable) (he : e.rsps = .ok [] :: rest) :
    ∃ q qs, Serves (n + 4) e s [.request (writeReq s.cfg c), .delay n] { e with rsps := rest }
      { s with xfq := none, dly := 0, upc := s.upc.next.next, ph := .issue, port := q, stim := qs } := by
  obtain ⟨q, qs, hwrite⟩ := serves_write hc hp hk he
  obtain ⟨q, qs, hdelay⟩ := serves_delay (s := { s with
    xfq := none, upc := s.upc.next, ph := .issue, port := q, stim := qs }) { e with rsps := rest } rfl hn
  exact ⟨q, qs, (hwrite.trans hdelay).of_eq (by omega)⟩

/-- From ERS0 to ERS2. -/
theorem serves_erase_enable {e : Script} {s : State} {rest : List Rsp} (hu : s.upc = .ers0) (hp : s.ph = .issue)
    (he : e.rsps = .ok [] :: rest) :
    ∃ q qs, Serves (s.cfg.tErasePre + 4) e s [.request (writeReq s.cfg .iscEnable), .delay s.cfg.tErasePre]
      { e with rsps := rest }
      { s with xfq := none, dly := 0, upc := .ers2, ph := .issue, port := q, stim := qs } := by
  have hrun := serves_write_delay (c := .iscEnable) (n := s.cfg.tErasePre) (by rw [hu]; rfl) (by rw [hu]; rfl) hp
    (.inr (.inl rfl)) he
  rwa [hu] at hrun

/-- ENDOK ERASED is the end of a run that succeeds (42_prepare_erase.md R191). -/
theorem microErs4_eq_ended {s : State} (hu : s.upc = .ers4) : microErs4 s = EraseRun.ended .done s := by
  have hret : microErs4 s = finish .ok 0 (advance .erased s) := if_neg (by simp [hu, advance])
  rw [hret, EraseRun.ended]
  simp [EraseRun.result, advance]

/-- ERS4 shows nothing. -/
theorem serves_erase_end {s : State} (e : Script) (hu : s.upc = .ers4) (hp : s.ph = .issue) :
    ∃ q qs, Serves 1 e s [] e { EraseRun.ended .done s with port := q, stim := qs } := by
  have hmove : Move (drive e s) (EraseRun.ended .done (drive e s)) :=
    microErs4_eq_ended (s := drive e s) hu ▸ .eraseEnded hu hp
  obtain ⟨q, qs, hstep⟩ := step_drive (v := EraseRun.ended .done s) hmove rfl
  have hone := serves_of_step hstep
  have hshown (t : State) : events (drive e s) t = [] := by simp [events, drive, hu, hp, Upc.cmd?]
  rw [hshown, Script.after_of_issue hp] at hone
  exact ⟨q, qs, hone⟩

/-- One erase run, by its first request that fails or to its end at ERS4. -/
theorem serves_eraseRun {e : Script} {s : State} {r : EraseRun} {rest : List Rsp} (hu : s.upc = .ers0)
    (hp : s.ph = .issue) (he : e.rsps = r.rsps ++ rest) :
    ∃ d q qs, Serves (r.steps s.cfg) e s (r.trace s.cfg) { e with rsps := rest }
      { r.ended s with dly := d, port := q, stim := qs } := by
  cases r with
  | enableFails code =>
    have hc : s.upc.cmd? = some .iscEnable := by rw [hu]; rfl
    obtain ⟨q, qs, hfail⟩ := serves_failing_outside_rst hc (by rw [hu]; rfl) hp
      (.issued _ hc hp (.inr (.inl rfl))) he
    exact ⟨s.dly, q, qs, hfail⟩
  | eraseFails code =>
    obtain ⟨q, qs, henable⟩ := serves_erase_enable hu hp he
    obtain ⟨q, qs, hfail⟩ := serves_failing_outside_rst (e := { e with rsps := .err code :: rest })
      (s := { s with xfq := none, dly := 0, upc := .ers2, ph := .issue, port := q, stim := qs })
      (c := .iscErase) rfl rfl rfl (.issued _ rfl rfl (.inr (.inr (.inl rfl)))) rfl
    exact ⟨0, q, qs, henable.trans hfail⟩
  | done =>
    obtain ⟨q, qs, henable⟩ := serves_erase_enable hu hp he
    obtain ⟨q, qs, herase⟩ := serves_write_delay (e := { e with rsps := .ok [] :: rest })
      (s := { s with xfq := none, dly := 0, upc := .ers2, ph := .issue, port := q, stim := qs })
      (c := .iscErase) (n := s.cfg.tEraseSettle) rfl rfl rfl (.inr (.inr (.inl rfl))) rfl
    obtain ⟨q, qs, hend⟩ := serves_erase_end { e with rsps := rest }
      (s := { s with xfq := none, dly := 0, upc := .ers4, ph := .issue, port := q, stim := qs }) rfl rfl
    exact ⟨0, q, qs, ((henable.trans herase).trans hend).of_eq (by simp only [EraseRun.steps]; omega)⟩

/-! ### PREPARE_ERASE (42_prepare_erase.md R190) -/

/-- Settles O40: the erase run that PREPARE_ERASE begins at ERS0. -/
theorem prepareEraseRuns : Obligations.PrepareEraseRuns := by
  intro s e r rest hu he
  obtain ⟨-, -, -, hexec, -⟩ := acceptanceDispatches s hu
  obtain ⟨d, q, qs, hserves⟩ := serves_eraseRun
    (s := { s with opr := 2, att := 0, resValid := false, upc := .ers0, ph := .issue }) rfl rfl he
  exact ⟨_, hexec, _, hserves.serve_eq, by simp [EraseRun.ended, EndedWith, UploadPartEq]⟩

end Sys2Proof.Machine

/-! PROOFS. The statements of 43_upload.md: the laws of the chunk function and the loop that computes it (R205 to R207),
the burst (R208), the draw, the status flags and the check of DONE (R203, R211, R212), and UPLOAD run to its end under a
prompt environment (R200). -/

namespace Sys2Proof.Machine

/-! ### The bytes of W (20_memory.md R63) -/

theorem logicalBytes_add (w : Nat → Byte) (off a b : Nat) :
    logicalBytes w off (a + b) = logicalBytes w off a ++ logicalBytes w (off + a) b := by
  simp [logicalBytes, List.range_add, Nat.add_assoc]

theorem logicalBytes_congr {w w' : Nat → Byte} {off n : Nat} (h : ∀ k, k < off + n → w k = w' k) :
    logicalBytes w off n = logicalBytes w' off n :=
  List.map_congr_left fun _ hj => h _ (Nat.add_lt_add_left (List.mem_range.mp hj) off)

theorem logicalByte_prefixLen_add (c : Config) (img : Memory) (j : Nat) :
    logicalByte c img (c.prefixLen + j) = Memory.read img j := by
  simp [logicalByte]

/-- W below PREFIX_LEN is the burst frame, and the image stays out of it. -/
theorem logicalBytes_prefix {c : Config} (h : c.cmd.lscBitstreamBurst.length = c.prefixLen) (img : Memory) :
    logicalBytes (logicalByte c img) 0 c.prefixLen = c.cmd.lscBitstreamBurst := by
  refine List.ext_getElem (by simp [length_logicalBytes, h]) fun i _ hi => ?_
  simp [logicalBytes, logicalByte, ← h, hi]

theorem logicalBytes_logicalByte {c : Config} (h : c.cmd.lscBitstreamBurst.length = c.prefixLen) (img : Memory)
    (n : Nat) :
    logicalBytes (logicalByte c img) 0 (c.prefixLen + n) =
      c.cmd.lscBitstreamBurst ++ (List.range n).map (Memory.read img) := by
  rw [logicalBytes_add, logicalBytes_prefix h, logicalBytes, Nat.zero_add]
  simp only [logicalByte_prefixLen_add]

/-! ### Chunk numbers and lengths (43_upload.md R205, R206) -/

/-- N is the least number of chunks of `m` bytes that hold `t`. -/
theorem ceilDiv_le_iff {m : Nat} (hm : 1 ≤ m) (t k : Nat) : ceilDiv t m ≤ k ↔ t ≤ k * m := by
  rw [ceilDiv, ← Nat.ceilDiv_eq_add_pred_div, ceilDiv_le_iff_le_mul hm, Nat.mul_comm]

theorem lt_ceilDiv_iff {m : Nat} (hm : 1 ≤ m) (t k : Nat) : k < ceilDiv t m ↔ k * m < t := by
  rw [← not_le, ceilDiv_le_iff hm, not_le]

/-- Every chunk but the last is full. -/
theorem chunkLen_of_succ_lt {m t i : Nat} (hm : 1 ≤ m) (h : i + 1 < ceilDiv t m) : chunkLen m t i = m := by
  rw [lt_ceilDiv_iff hm, Nat.succ_mul] at h
  exact Nat.min_eq_left (by omega)

/-- The last chunk has what is left. -/
theorem chunkLen_of_succ_eq {m t i : Nat} (hm : 1 ≤ m) (h : i + 1 = ceilDiv t m) :
    chunkLen m t i = t - i * m := by
  have hle := (ceilDiv_le_iff hm t (i + 1)).mp h.ge
  rw [Nat.succ_mul] at hle
  exact Nat.min_eq_right (by omega)

/-- Chunk `k` ends where chunk `k + 1` begins, or at the end of W. -/
theorem mul_add_chunkLen {m t k : Nat} (h : k * m ≤ t) : k * m + chunkLen m t k = min ((k + 1) * m) t := by
  rw [chunkLen, Nat.succ_mul]
  omega

/-! ### The first `k` messages of the burst -/

/-- Messages 0 to `k - 1` of the burst. -/
def firstChunks (w : Nat → Byte) (m t k : Nat) : Request :=
  (List.range k).map (chunkMsg w m t)

theorem chunks_eq_firstChunks (w : Nat → Byte) (m t : Nat) : chunks w m t = firstChunks w m t (ceilDiv t m) := rfl

theorem firstChunks_succ (w : Nat → Byte) (m t k : Nat) :
    firstChunks w m t (k + 1) = firstChunks w m t k ++ [chunkMsg w m t k] := by
  simp [firstChunks, List.range_succ]

theorem Request.written_append (r r' : Request) :
    Request.written (r ++ r') = Request.written r ++ Request.written r' := by
  induction r with
  | nil => rfl
  | cons x r ih => simp [Request.written, ih]

theorem written_chunkMsg (w : Nat → Byte) (m t i : Nat) :
    Request.written [chunkMsg w m t i] = logicalBytes w (i * m) (chunkLen m t i) := by
  simp [Request.written, chunkMsg]

/-- The first `k` messages carry W up to the end of the last of them. -/
theorem written_firstChunks (w : Nat → Byte) {m t k : Nat} (hm : 1 ≤ m) (h : k ≤ ceilDiv t m) :
    Request.written (firstChunks w m t k) = logicalBytes w 0 (min (k * m) t) := by
  induction k with
  | zero => simp [firstChunks, Request.written, logicalBytes]
  | succ k ih =>
    have hk : k * m ≤ t := (mul_lt_of_lt_ceilDiv hm h).le
    rw [firstChunks_succ, Request.written_append, ih (Nat.le_of_succ_le h), Nat.min_eq_left hk, written_chunkMsg,
      ← mul_add_chunkLen hk, logicalBytes_add, Nat.zero_add]

/-- The burst carries W, whole and in order. -/
theorem written_chunks (w : Nat → Byte) {m : Nat} (hm : 1 ≤ m) (t : Nat) :
    Request.written (chunks w m t) = logicalBytes w 0 t := by
  have hall : t ≤ ceilDiv t m * m := (ceilDiv_le_iff hm t _).mp le_rfl
  rw [chunks_eq_firstChunks, written_firstChunks w hm le_rfl, Nat.min_eq_right hall]

/-! ### The laws of the chunk function (43_upload.md R206) -/

theorem length_chunks (w : Nat → Byte) (m t : Nat) : (chunks w m t).length = ceilDiv t m := by
  simp [chunks]

theorem getElem_chunks {w : Nat → Byte} {m t i : Nat} (h : i < (chunks w m t).length) :
    (chunks w m t)[i] = chunkMsg w m t i := by
  simp [chunks]

theorem chunkMsg_nostart (w : Nat → Byte) (m t i : Nat) : (chunkMsg w m t i).nostart = decide (1 ≤ i) := by
  simp [chunkMsg, Nat.one_le_iff_ne_zero]

theorem length_chunkMsg_data (w : Nat → Byte) (m t i : Nat) : (chunkMsg w m t i).data.length = chunkLen m t i :=
  length_logicalBytes w _ _

/-- Of messages that write, the lengths add up to the bytes written. -/
theorem sum_len_eq_length_written {r : Request} (h : ∀ x ∈ r, x.rd = false ∧ x.data.length = x.len.toNat) :
    (r.map (fun x => x.len.toNat)).sum = (Request.written r).length := by
  induction r with
  | nil => rfl
  | cons x r ih =>
    obtain ⟨⟨hrd, hlen⟩, hrest⟩ := List.forall_mem_cons.mp h
    simp [Request.written, hrd, hlen, ih hrest]

theorem sum_len_chunks (w : Nat → Byte) {m : Nat} (hm : 1 ≤ m) (hw : m < 2 ^ 16) (t : Nat) :
    ((chunks w m t).map (fun x => x.len.toNat)).sum = t := by
  rw [sum_len_eq_length_written, written_chunks w hm, length_logicalBytes]
  intro x hx
  obtain ⟨i, -, rfl⟩ := List.mem_map.mp hx
  exact ⟨rfl, by rw [length_chunkMsg_data, toNat_chunkMsg_len w hw]⟩

/-- The bytes of a burst are those of W below `t`. -/
theorem chunks_congr {w w' : Nat → Byte} {t : Nat} (h : ∀ k, k < t → w k = w' k) {m : Nat} (hm : 1 ≤ m) :
    chunks w m t = chunks w' m t := by
  refine List.map_congr_left fun i hi => ?_
  have hin := mul_lt_of_lt_ceilDiv hm (List.mem_range.mp hi)
  have hend : i * m + chunkLen m t i ≤ t := mul_add_chunkLen hin.le ▸ Nat.min_le_right _ _
  simp only [chunkMsg, logicalBytes_congr fun k hk => h k (hk.trans_le hend)]

/-- Images that agree on the bytes sent make the same W. -/
theorem logicalByte_congr {c : Config} {img img' : Memory} {t : Nat}
    (h : ∀ k, k < t - c.prefixLen → Memory.read img' k = Memory.read img k) {k : Nat} (hk : k < t) :
    logicalByte c img' k = logicalByte c img k := by
  by_cases hp : k < c.prefixLen
  · simp [logicalByte, hp]
  · simp [logicalByte, hp, h (k - c.prefixLen) (by omega)]

/-- Settles O32: each law from the one message it is about, the total and the bytes from what the burst carries. -/
theorem chunkLaws : Obligations.ChunkLaws := by
  intro c img m t hm hmax ht hprefix hframe
  have hw : m < 2 ^ 16 := Nat.lt_succ_of_le hmax
  have hN := ceilDiv_pos hm ht
  refine ⟨hN, length_chunks _ m t, fun i hi => ?message, sum_len_chunks _ hm hw t, ?bytes, fun hle => ?single,
    fun w => by simp [chunks, chunkMsg], fun img' himg => chunks_congr (fun k => logicalByte_congr himg) hm⟩
  case message =>
    have hlt : i < ceilDiv t m := length_chunks _ m t ▸ hi
    rw [getElem_chunks hi, toNat_chunkMsg_len _ hw, length_chunkMsg_data]
    exact ⟨rfl, chunkMsg_nostart _ m t i, fun h => chunkLen_of_succ_lt hm (by omega),
      fun h => h ▸ chunkLen_of_succ_eq hm (by omega), chunkLen_pos hm hlt, chunkLen_le m t i, rfl⟩
  case bytes =>
    rw [written_chunks _ hm]
    simpa [Nat.add_sub_cancel' hprefix] using logicalBytes_logicalByte hframe img (t - c.prefixLen)
  case single => exact le_antisymm ((ceilDiv_le_iff hm t 1).mpr (by rwa [Nat.one_mul])) hN

/-! ### The iterative chunker (43_upload.md R207) -/

/-- The loop after `k` turns, `k` at most N. -/
def chunkLoopAt (w : Nat → Byte) (m : BitVec 16) (tot : Nat) (cl : BitVec 16) (k : Nat) : ChunkLoop where
  off := min (k * m.toNat) tot
  cl := if k = 0 then cl else BitVec.ofNat 16 (chunkLen m.toNat tot (k - 1))
  first := decide (k = 0)
  out := firstChunks w m.toNat tot k

theorem chunkLoopAt_zero (w : Nat → Byte) (m : BitVec 16) (tot : Nat) (cl : BitVec 16) :
    chunkLoopAt w m tot cl 0 = chunkStart cl := by
  simp [chunkLoopAt, chunkStart, firstChunks]

/-- The comparison before the narrowing gives the length of the chunk. -/
theorem narrowed_eq_chunkLen (m : BitVec 16) (tot k : Nat) :
    (if m.toNat ≤ tot - k * m.toNat then m else BitVec.ofNat 16 (tot - k * m.toNat)) =
      BitVec.ofNat 16 (chunkLen m.toNat tot k) := by
  rw [chunkLen]
  split
  · next h => rw [Nat.min_eq_left h, BitVec.ofNat_toNat, BitVec.setWidth_eq]
  · next h => rw [Nat.min_eq_right (Nat.le_of_not_le h)]

theorem chunkTurn_chunkLoopAt (w : Nat → Byte) {m : BitVec 16} {tot k : Nat} (cl : BitVec 16) (hm : 1 ≤ m.toNat)
    (h : k < ceilDiv tot m.toNat) :
    chunkTurn w m tot (chunkLoopAt w m tot cl k) = chunkLoopAt w m tot cl (k + 1) := by
  have hk : k * m.toNat ≤ tot := (mul_lt_of_lt_ceilDiv hm h).le
  have hlen : (BitVec.ofNat 16 (chunkLen m.toNat tot k)).toNat = chunkLen m.toNat tot k :=
    toNat_chunkMsg_len w m.isLt tot k
  simp [chunkTurn, chunkLoopAt, Nat.min_eq_left hk, narrowed_eq_chunkLen, hlen, mul_add_chunkLen hk,
    firstChunks_succ, chunkMsg]

/-- The loop turns until it has made N turns, and then no more. -/
theorem chunkLoop_chunkLoopAt (w : Nat → Byte) {m : BitVec 16} {tot : Nat} (cl : BitVec 16) (hm : 1 ≤ m.toNat)
    (fuel : Nat) {k : Nat} (hk : k ≤ ceilDiv tot m.toNat) :
    chunkLoop w m tot fuel (chunkLoopAt w m tot cl k) =
      chunkLoopAt w m tot cl (min (k + fuel) (ceilDiv tot m.toNat)) := by
  induction fuel generalizing k with
  | zero => rw [chunkLoop, Nat.add_zero, Nat.min_eq_left hk]
  | succ fuel ih =>
    have hoff : (chunkLoopAt w m tot cl k).off < tot ↔ k < ceilDiv tot m.toNat := by
      simp [chunkLoopAt, lt_ceilDiv_iff hm]
    rw [chunkLoop]
    split
    · next hmore =>
      have hlt := hoff.mp hmore
      rw [chunkTurn_chunkLoopAt w cl hm hlt, ih hlt, Nat.succ_add_eq_add_succ]
    · next hdone =>
      obtain rfl : k = ceilDiv tot m.toNat := le_antisymm hk (not_lt.mp fun hlt => hdone (hoff.mpr hlt))
      rw [Nat.min_eq_right (Nat.le_add_right _ _)]

/-- Settles O33: from its start the loop stands after `min k N` turns. -/
theorem chunkLoopRefinesChunks : Obligations.ChunkLoopRefinesChunks := by
  intro w m tot cl hm htot
  have hloop (k : Nat) := chunkLoop_chunkLoopAt w (tot := tot) cl hm k (Nat.zero_le _)
  simp only [chunkLoopAt_zero, Nat.zero_add] at hloop
  refine ⟨fun k hk => ?_, fun k hk => ?_⟩
  · have hoff : min (k * m.toNat) tot = k * m.toNat := Nat.min_eq_left (mul_lt_of_lt_ceilDiv hm hk).le
    rw [hloop, Nat.min_eq_left hk.le]
    exact ⟨hoff, (written_firstChunks w hm hk.le).trans (by rw [hoff])⟩
  · have hall : tot ≤ ceilDiv tot m.toNat * m.toNat := (ceilDiv_le_iff hm tot _).mp le_rfl
    have hN := ceilDiv_pos hm htot
    rw [hloop, Nat.min_eq_right hk]
    exact ⟨Nat.min_eq_right hall, if_neg (by omega), rfl⟩

/-! ### The burst (43_upload.md R204, R208, R209) -/

/-- W is not empty, for the burst frame is not (20_memory.md R63). -/
theorem prefixLen_pos_of_wf {c : Config} (hwf : c.wf = true) : 1 ≤ c.prefixLen := by
  have hframes := framesOk_of_wf hwf
  simp only [Config.wf, Config.lengthsOk, Bool.and_eq_true, decide_eq_true_eq] at hwf
  obtain ⟨⟨-, ⟨hcmd, -⟩, -⟩, -⟩ := hwf
  calc 1 ≤ c.cmdLen.toNat := hcmd
    _ = c.prefixLen := (Laws.frame_length hframes .lscBitstreamBurst).symm.trans (length_burstFrame hframes)

theorem maxXfer_pos_of_wf {c : Config} (hwf : c.wf = true) : 1 ≤ c.maxXfer.toNat := by
  simp only [Config.wf, Config.maxXferOk, Bool.and_eq_true, decide_eq_true_eq] at hwf
  obtain ⟨⟨⟨⟨⟨⟨⟨-, hmax⟩, -⟩, -⟩, -⟩, -⟩, -⟩, -⟩ := hwf
  exact hmax

theorem rd_of_mem_chunks {w : Nat → Byte} {m t : Nat} {x : Msg} (h : x ∈ chunks w m t) : x.rd = false := by
  obtain ⟨i, -, rfl⟩ := List.mem_map.mp h
  rfl

/-- Every message but the first continues. -/
theorem nostart_of_mem_tail_chunks {w : Nat → Byte} {m t : Nat} {x : Msg} (h : x ∈ (chunks w m t).tail) :
    x.nostart = true := by
  obtain ⟨i, hi, rfl⟩ := List.getElem_of_mem h
  rw [List.getElem_tail, getElem_chunks, chunkMsg_nostart]
  simp

/-- Settles O34: the request is chunks(W, MAX_XFER), which carries W. -/
theorem burstCarriesTheWholeImage : Obligations.BurstCarriesTheWholeImage := by
  intro s hu hp hwf htot
  have hm := maxXfer_pos_of_wf hwf
  have hpos := prefixLen_pos_of_wf hwf
  refine ⟨chunks (logicalByte s.cfg s.port.img) s.cfg.maxXfer.toNat s.tot, _, _,
    (atSender_of_upc _ hu rfl).trans (transact_of_issue hp), ?_, requestOk_chunks _ hm (by omega),
    fun _ => rd_of_mem_chunks, fun _ => nostart_of_mem_tail_chunks⟩
  rw [written_chunks _ hm, htot, Nat.add_comm,
    logicalBytes_logicalByte (length_burstFrame (framesOk_of_wf hwf))]

/-! ### The draw, the flags and the check of DONE (43_upload.md R203, R211, R212) -/

theorem retries_of_inUpl {s : State} (h : s.upc.inUpl = true) : retries s = false := by
  have hout : s.upc.inRst = false := by
    cases hu : s.upc <;> simp_all [Upc.inUpl, Upc.inRst]
  simp [retries, hout]

theorem microUpl2_of_alloc {s : State} (h : s.port.allocOk = true) : microUpl2 s = goto .upl3 s := if_pos h

theorem microUpl2_of_no_buffer {s : State} (hu : s.upc = .upl2) (h : s.port.allocOk = false) :
    microUpl2 s = finish .allocation 0 { s with phase := .failed } := by
  rw [microUpl2, if_neg (by simp [h]), raiseError_of_not_retries (retries_of_inUpl (by rw [hu]; rfl))]

theorem microUpl5_of_done {s : State} (h : s.doneF = true) : microUpl5 s = endOk .verified s := if_pos h

theorem microUpl5_of_not_done {s : State} (hu : s.upc = .upl5) (h : s.doneF = false) :
    microUpl5 s = finish .uploadIncomplete s.sr { s with phase := .failed } := by
  rw [microUpl5, if_neg (by simp [h]), raiseError_of_not_retries (retries_of_inUpl (by rw [hu]; rfl))]

/-- Settles O28: the move of UPL2. -/
theorem allocationDraw : Obligations.AllocationDraw := by
  intro s hr hu hp
  have hstep := (Move.drawn hu hp).step_eq hr
  refine ⟨fun hthere => ?_, fun hnone => ?_⟩
  · rw [hstep, microUpl2_of_alloc hthere, goto, ← hp]
  · rw [hstep, microUpl2_of_no_buffer hu hnone, finish_of_issue (s := { s with phase := .failed }) hp]

/-- Settles O29: the move of UPL5, which reads DONE and SR. -/
theorem doneIsAuthoritative : Obligations.DoneIsAuthoritative := by
  intro s busy fail hr hu hp
  have hstep := (Move.doneChecked (s := { s with busyF := busy, failF := fail }) hu hp).step_eq hr
  refine ⟨fun hdone => ?_, fun hdone => ?_⟩
  · rw [hstep, microUpl5_of_done (s := { s with busyF := busy, failF := fail }) hdone,
      endOk_of_issue (s := { s with busyF := busy, failF := fail }) hp (by simp [hu])]
  · rw [hstep, microUpl5_of_not_done (s := { s with busyF := busy, failF := fail }) hu hdone,
      finish_of_issue (s := { s with busyF := busy, failF := fail, phase := .failed }) hp]

/-- Settles O30: the decoder is the triple of the three bits. -/
theorem otherStatusBitsDoNotLeak : Obligations.OtherStatusBitsDoNotLeak := by
  intro c a b
  refine ⟨rfl, ?_⟩
  rw [decodeStatus, decodeStatus, Prod.mk.injEq, Prod.mk.injEq]
  simp only [forall_eq_or_imp, forall_eq]

/-! ### Routine UPL under a prompt environment (43_upload.md R200, notes/assumptions/21.md) -/

/-- The ISSUE of a request, whatever else it does to the registers. -/
theorem serves_request {e : Script} {s u v : State} {c : Cmd} {r : Request} (hc : s.upc.cmd? = some c)
    (hp : s.ph = .issue) (hm : Move (drive e s) u) (h : SameMachine v u) (hx : v.xfq = some r) :
    ∃ q qs, Serves 1 e s [.request r] e { v with port := q, stim := qs } := by
  obtain ⟨q, qs, hs⟩ := step_drive hm h
  have hone := serves_of_step hs
  have hshown : events (drive e s) { v with port := q, stim := qs } = [.request r] := by
    rw [events_of_issue (s := drive e s) rfl hc hp]
    exact congrArg (fun x => x.toList.map Event.request) hx
  rw [hshown, Script.after_of_issue hp] at hone
  exact ⟨q, qs, hone⟩

/-- Outside RST an error that is awaited ends the operation (60_exceptions.md R280). -/
theorem serves_error_outside_rst {e : Script} {s : State} {c : Cmd} {code : Nat} {rest : List Rsp}
    (hc : s.upc.cmd? = some c) (hout : s.upc.inRst = false) (hp : s.ph = .wait) (he : e.rsps = .err code :: rest) :
    ∃ q qs, Serves 1 e s [] { e with rsps := rest }
      { finish .transport (errDetail s.cfg code) { s with phase := .failed } with port := q, stim := qs } := by
  have hne : s.upc ≠ .rst1 := by
    intro h
    simp [h, Upc.inRst] at hout
  have herror := serves_error hc hp he
  rw [abortEvents, if_neg (fun h => hne h.1), answeredByError_of_ne_rst1 (s := drive e s) hne, raiseTransport_eq,
    raiseError_of_not_retries (by simp [retries, drive, hout])] at herror
  obtain ⟨q, qs, hnext⟩ := nextPort_eq (finish .transport (errDetail s.cfg code)
    { drive e s with xfq := none, phase := .failed })
  exact ⟨q, qs, hnext ▸ herror⟩

/-- UPL2 and UPL5 show nothing and consume no response. -/
theorem serves_upload_check {e : Script} {s u v : State} (hu : s.upc = .upl2 ∨ s.upc = .upl5) (hp : s.ph = .issue)
    (hm : Move (drive e s) u) (h : SameMachine v u) :
    ∃ q qs, Serves 1 e s [] e { v with port := q, stim := qs } := by
  obtain ⟨q, qs, hs⟩ := step_drive hm h
  have hone := serves_of_step hs
  have hshown (t : State) : events (drive e s) t = [] := by
    rcases hu with hu | hu <;> simp [events, drive, hu, hp, Upc.cmd?]
  rw [hshown, Script.after_of_issue hp] at hone
  exact ⟨q, qs, hone⟩

/-- `s` while the request of UPL0 is pending; its ISSUE has done `advance(STREAMING)` (43_upload.md R201). -/
def initPending (s : State) : State :=
  { advance .streaming s with upc := .upl0, ph := .wait, xfq := some (writeReq s.cfg .lscInit) }

/-- `s` at UPL2: LSC_INIT has been sent and the settling delay has passed (43_upload.md R201, R202). -/
def initialised (s : State) : State :=
  { advance .streaming s with upc := .upl2, ph := .issue, xfq := none, dly := 0 }

/-- `s` while the burst that carries the image `img` is pending (43_upload.md R208). -/
def burstPending (img : Memory) (s : State) : State :=
  burstIssue { initialised s with upc := .upl3, port := { s.port with img := img } }

/-- `s` at UPL4: the burst has been sent. -/
def streamed (s : State) : State :=
  { burstPending s.port.img s with upc := .upl4, ph := .issue, xfq := none }

theorem serves_init_issue {s : State} (e : Script) (hu : s.upc = .upl0) (hp : s.ph = .issue) :
    ∃ q qs, Serves 1 e s [.request (writeReq s.cfg .lscInit)] e { initPending s with port := q, stim := qs } :=
  serves_request (c := .lscInit) (v := initPending s) (by rw [hu]; rfl) hp (.initIssued hu hp)
    (by rw [initPending, ← hu]; rfl) rfl

/-- From UPL0 to UPL2. -/
theorem serves_init {e : Script} {s : State} {rest : List Rsp} (hu : s.upc = .upl0) (hp : s.ph = .issue)
    (he : e.rsps = .ok [] :: rest) :
    ∃ q qs, Serves (s.cfg.tInitSettle + 4) e s [.request (writeReq s.cfg .lscInit), .delay s.cfg.tInitSettle]
      { e with rsps := rest } { initialised s with port := q, stim := qs } := by
  obtain ⟨q, qs, hissue⟩ := serves_init_issue e hu hp
  obtain ⟨q, qs, hanswer⟩ := serves_success (s := { initPending s with port := q, stim := qs }) (c := .lscInit) rfl
    rfl he (.wrote .lscInit rfl rfl · (by decide)) rfl
  obtain ⟨q, qs, hdelay⟩ := serves_delay (n := s.cfg.tInitSettle)
    (s := { initialised s with upc := .upl1, dly := s.dly, port := q, stim := qs }) { e with rsps := rest } rfl rfl
  exact ⟨q, qs, ((hissue.trans hanswer).trans hdelay).of_eq (by omega)⟩

/-- UPL2 without a buffer. -/
theorem serves_no_buffer {e : Script} {s : State} (hu : s.upc = .upl2) (hp : s.ph = .issue)
    (hnone : e.allocOk = false) :
    ∃ q qs, Serves 1 e s [] e { finish .allocation 0 { s with phase := .failed } with port := q, stim := qs } :=
  serves_upload_check (.inl hu) hp (.drawn hu hp) (by rw [microUpl2_of_no_buffer (s := drive e s) hu hnone]; rfl)

/-- From UPL0 to UPL3, the buffer being there. -/
theorem serves_alloc {e : Script} {s : State} {rest : List Rsp} (hu : s.upc = .upl0) (hp : s.ph = .issue)
    (halloc : e.allocOk = true) (he : e.rsps = .ok [] :: rest) :
    ∃ q qs, Serves (s.cfg.tInitSettle + 5) e s [.request (writeReq s.cfg .lscInit), .delay s.cfg.tInitSettle]
      { e with rsps := rest } { initialised s with upc := .upl3, port := q, stim := qs } := by
  obtain ⟨q, qs, hinit⟩ := serves_init hu hp he
  obtain ⟨q, qs, hdraw⟩ := serves_upload_check (e := { e with rsps := rest })
    (s := { initialised s with port := q, stim := qs }) (v := { initialised s with upc := .upl3 }) (.inl rfl) rfl
    (.drawn rfl rfl) (by rw [microUpl2_of_alloc halloc]; rfl)
  exact ⟨q, qs, hinit.trans hdraw⟩

/-- From UPL0 to the WAIT of the burst, which carries the image that the script holds. -/
theorem serves_burst {e : Script} {s : State} {rest : List Rsp} (hu : s.upc = .upl0) (hp : s.ph = .issue)
    (halloc : e.allocOk = true) (he : e.rsps = .ok [] :: rest) :
    ∃ q qs, Serves (s.cfg.tInitSettle + 6) e s
      [.request (writeReq s.cfg .lscInit), .delay s.cfg.tInitSettle,
        .request (chunks (logicalByte s.cfg e.img) s.cfg.maxXfer.toNat s.tot)]
      { e with rsps := rest } { burstPending e.img s with port := q, stim := qs } := by
  obtain ⟨q, qs, hready⟩ := serves_alloc hu hp halloc he
  obtain ⟨q, qs, hissue⟩ := serves_request (e := { e with rsps := rest }) (v := burstPending e.img s)
    (s := { initialised s with upc := .upl3, port := q, stim := qs }) (c := .lscBitstreamBurst) rfl rfl
    (.burstIssued rfl rfl) rfl rfl
  exact ⟨q, qs, hready.trans hissue⟩

/-- From UPL0 to UPL4. -/
theorem serves_streamed {e : Script} {s : State} {rest : List Rsp} (hu : s.upc = .upl0) (hp : s.ph = .issue)
    (halloc : e.allocOk = true) (he : e.rsps = .ok [] :: .ok [] :: rest) :
    ∃ q qs, Serves (s.cfg.tInitSettle + 7) e s
      [.request (writeReq s.cfg .lscInit), .delay s.cfg.tInitSettle,
        .request (chunks (logicalByte s.cfg e.img) s.cfg.maxXfer.toNat s.tot)]
      { e with rsps := rest } { streamed s with port := q, stim := qs } := by
  obtain ⟨q, qs, hpending⟩ := serves_burst hu hp halloc he
  obtain ⟨q, qs, hanswer⟩ := serves_success (e := { e with rsps := .ok [] :: rest })
    (s := { burstPending e.img s with port := q, stim := qs }) (c := .lscBitstreamBurst) rfl rfl rfl
    (.wrote .lscBitstreamBurst rfl rfl · (by decide)) rfl
  exact ⟨q, qs, hpending.trans hanswer⟩

/-- The status read, from its ISSUE to UPL5 (43_upload.md R210). -/
theorem serves_status_read {e : Script} {s : State} {b : List Byte} {rest : List Rsp} (hu : s.upc = .upl4)
    (hp : s.ph = .issue) (hl : b.length = s.cfg.statusReadLen.toNat) (he : e.rsps = .ok b :: rest) :
    ∃ q qs, Serves 2 e s [.request (writeReadReq s.cfg .lscReadStatus s.cfg.statusReadLen)] { e with rsps := rest }
      { setStatus (readWord .lscReadStatus b) s with
        xfq := none, upc := .upl5, ph := .issue, port := q, stim := qs } := by
  have hc : s.upc.cmd? = some .lscReadStatus := by rw [hu]; rfl
  have hnext : s.upc.next = .upl5 := by rw [hu]; rfl
  obtain ⟨q, qs, hissue⟩ := serves_issue (e := e) hc hp (.statusIssued hu hp)
  obtain ⟨q', qs', hread⟩ := serves_success
    (s := { s with
      ph := .wait, xfq := some (writeReadReq s.cfg .lscReadStatus s.cfg.statusReadLen), port := q, stim := qs }) hc rfl
    he (.statusRead b hu rfl · hl) rfl
  exact ⟨q', qs', hnext ▸ hissue.trans hread⟩

/-- What the upload `r` makes of SR and the flags: the word read, decoded (43_upload.md R210, R211). -/
def UploadRun.latch (r : UploadRun) (s : State) : State :=
  match r with
  | .initFails _ | .noBuffer | .burstFails _ | .statusFails _ => s
  | .status b => setStatus (readWord .lscReadStatus b) s

/-- The end of the upload `r` begun in `s`, but for DLY, OFF and CL: PHASE keeps FAILED even when it succeeds. -/
def UploadRun.ended (r : UploadRun) (s : State) : State :=
  finish (r.result s.cfg).1 (r.result s.cfg).2
    { r.latch s with phase := if r.done s.cfg = true ∧ s.phase ≠ .failed then .verified else .failed }

/-- DONE decides the result (43_upload.md R212, R213). -/
theorem UploadRun.result_status (c : Config) (b : List Byte) :
    UploadRun.result c (.status b) =
      if UploadRun.done c (.status b) then (.ok, 0) else (.uploadIncomplete, readWord .lscReadStatus b) := rfl

/-- CHKDONE is the end of a run that has read a status word (43_upload.md R212). -/
theorem microUpl5_eq_ended {s : State} (hu : s.upc = .upl5) (b : List Byte) :
    microUpl5 (setStatus (readWord .lscReadStatus b) s) = UploadRun.ended (.status b) s := by
  rw [UploadRun.ended, UploadRun.result_status]
  cases hdone : UploadRun.done s.cfg (.status b) with
  | true =>
    have hret : microUpl5 (setStatus (readWord .lscReadStatus b) s) =
        finish .ok 0 (advance .verified (setStatus (readWord .lscReadStatus b) s)) :=
      (microUpl5_of_done hdone).trans (if_neg (by simp [hu]))
    rw [hret, advance_eq]
    by_cases hf : s.phase = .failed <;> simp [UploadRun.latch, hf]
  | false =>
    rw [microUpl5_of_not_done (s := setStatus (readWord .lscReadStatus b) s) hu hdone]
    simp [UploadRun.latch]

/-- FAILED is in PHASE at UPL5 exactly when it was at the beginning. -/
theorem ended_streamed (s : State) (b : List Byte) (q : Ports) (qs : List Ports) :
    UploadRun.ended (.status b) { streamed s with upc := .upl5, port := q, stim := qs } =
      { UploadRun.ended (.status b) s with
        dly := 0, off := (streamed s).off, cl := (streamed s).cl, port := q, stim := qs } := by
  have hphase : (streamed s).phase = .failed ↔ s.phase = .failed := by
    simp [streamed, burstPending, initialised]
  simp only [UploadRun.ended, ne_eq, hphase]
  rfl

theorem serves_upload_end {s : State} (e : Script) (b : List Byte) (hu : s.upc = .upl5) (hp : s.ph = .issue) :
    ∃ q qs, Serves 1 e (setStatus (readWord .lscReadStatus b) s) [] e
      { UploadRun.ended (.status b) s with port := q, stim := qs } := by
  have hmove : Move (drive e (setStatus (readWord .lscReadStatus b) s)) (UploadRun.ended (.status b) (drive e s)) :=
    microUpl5_eq_ended (s := drive e s) hu b ▸ .doneChecked hu hp
  exact serves_upload_check (.inr hu) hp hmove rfl

/-- One upload, by its first request that fails, the missing buffer, or the status word. -/
theorem serves_uploadRun {e : Script} {s : State} {r : UploadRun} {rest : List Rsp} {n : Nat} (hu : s.upc = .upl0)
    (hp : s.ph = .issue) (htot : s.tot = n + s.cfg.prefixLen) (hfits : r.fits s.cfg e.allocOk = true)
    (he : e.rsps = r.rsps ++ rest) :
    ∃ d off cl q qs, Serves (r.steps s.cfg) e s (r.trace s.cfg e.img n) { e with rsps := rest }
      { r.ended s with dly := d, off := off, cl := cl, port := q, stim := qs } := by
  rw [UploadRun.trace.eq_def, ← htot]
  cases r with
  | initFails code =>
    obtain ⟨q, qs, hissue⟩ := serves_init_issue e hu hp
    obtain ⟨q, qs, herror⟩ := serves_error_outside_rst (s := { initPending s with port := q, stim := qs })
      (c := .lscInit) rfl rfl rfl he
    exact ⟨s.dly, s.off, s.cl, q, qs, hissue.trans herror⟩
  | noBuffer =>
    obtain ⟨q, qs, hinit⟩ := serves_init hu hp he
    obtain ⟨q, qs, hends⟩ := serves_no_buffer (e := { e with rsps := rest })
      (s := { initialised s with port := q, stim := qs }) rfl rfl (by simpa [UploadRun.fits] using hfits)
    exact ⟨0, s.off, s.cl, q, qs, hinit.trans hends⟩
  | burstFails code =>
    obtain ⟨q, qs, hpending⟩ := serves_burst hu hp hfits he
    obtain ⟨q, qs, herror⟩ := serves_error_outside_rst (e := { e with rsps := .err code :: rest })
      (s := { burstPending e.img s with port := q, stim := qs }) (c := .lscBitstreamBurst) rfl rfl rfl rfl
    exact ⟨0, (streamed s).off, (streamed s).cl, q, qs, hpending.trans herror⟩
  | statusFails code =>
    obtain ⟨q, qs, hstreamed⟩ := serves_streamed hu hp hfits he
    obtain ⟨q, qs, hfail⟩ := serves_failing_outside_rst (e := { e with rsps := .err code :: rest })
      (s := { streamed s with port := q, stim := qs }) (c := .lscReadStatus) rfl rfl rfl (.statusIssued rfl rfl) rfl
    exact ⟨0, (streamed s).off, (streamed s).cl, q, qs, hstreamed.trans hfail⟩
  | status b =>
    obtain ⟨halloc, hl⟩ : e.allocOk = true ∧ b.length = s.cfg.statusReadLen.toNat := by
      simpa [UploadRun.fits] using hfits
    obtain ⟨q, qs, hstreamed⟩ := serves_streamed hu hp halloc he
    obtain ⟨q, qs, hread⟩ := serves_status_read (e := { e with rsps := .ok b :: rest })
      (s := { streamed s with port := q, stim := qs }) rfl rfl hl rfl
    obtain ⟨q, qs, hend⟩ := serves_upload_end { e with rsps := rest } b
      (s := { streamed s with upc := .upl5, port := q, stim := qs }) rfl rfl
    rw [ended_streamed] at hend
    exact ⟨0, (streamed s).off, (streamed s).cl, q, qs, (hstreamed.trans hread).trans hend⟩

/-! ### UPLOAD (43_upload.md R200) -/

/-- Settles O44: the upload that UPLOAD begins at UPL0. -/
theorem uploadRuns : Obligations.UploadRuns := by
  intro s e n r rest hu hfits he
  obtain ⟨-, -, -, -, hexec, -⟩ := acceptanceDispatches s hu
  obtain ⟨d, off, cl, q, qs, hserves⟩ := serves_uploadRun
    (s := { s with
      len := n, tot := n + s.cfg.prefixLen, opr := 3, att := 0, resValid := false, upc := .upl0, ph := .issue })
    rfl rfl rfl hfits he
  refine ⟨_, hexec n, _, hserves.serve_eq, ?_⟩
  cases r with
  | status b => simp [UploadRun.ended, UploadRun.latch, EndedWith, UploadFrame, UploadRun.statusAfter, FlagsDecoded,
      decodeStatus]
  | initFails | noBuffer | burstFails | statusFails =>
    simp [UploadRun.ended, UploadRun.latch, EndedWith, UploadFrame, UploadRun.statusAfter, StatusKept]

end Sys2Proof.Machine

/-! PROOFS. The statements of 44_finalize_query.md: FINALIZE and QUERY_STATE, run to their end under a prompt environment
(R240 to R242). -/

namespace Sys2Proof.Machine

/-- A micro-operation that sends nothing and drives no line shows nothing and consumes no response. -/
theorem serves_silent {e : Script} {s u v : State} (hc : s.upc.cmd? = none) (hline : s.upc ≠ .rst0 ∧ s.upc ≠ .rst2)
    (hp : s.ph = .issue) (hm : Move (drive e s) u) (h : SameMachine v u) :
    ∃ q qs, Serves 1 e s [] e { v with port := q, stim := qs } := by
  obtain ⟨q, qs, hs⟩ := step_drive hm h
  have hone := serves_of_step hs
  have hshown (t : State) : events (drive e s) t = [] := by simp [events, drive, hc, hline, hp]
  rw [hshown, Script.after_of_issue hp] at hone
  exact ⟨q, qs, hone⟩

/-- FIN1 sets LOADED and ends FINALIZE (44_finalize_query.md R240). -/
theorem serves_finalize_end {s : State} (e : Script) (hu : s.upc = .fin1) (hp : s.ph = .issue) :
    ∃ q qs, Serves 1 e s [] e
      { finish .ok 0 (advance .complete { s with loaded := true }) with port := q, stim := qs } := by
  have hret : microFin1 (drive e s) = finish .ok 0 (advance .complete { drive e s with loaded := true }) :=
    if_neg (by simp [drive, hu])
  exact serves_silent (by rw [hu]; rfl) (by simp [hu]) hp (.finalEnded hu hp) (by rw [hret]; rfl)

/-- QRY0 ends QUERY_STATE with a constant and touches nothing else (44_finalize_query.md R242). -/
theorem serves_query {s : State} (e : Script) (hu : s.upc = .qry0) (hp : s.ph = .issue) :
    ∃ q qs, Serves 1 e s [] e { finish .ok s.cfg.stateOperating s with port := q, stim := qs } :=
  serves_silent (by rw [hu]; rfl) (by simp [hu]) hp (.queried hu hp) rfl

/-- Settles O38: the acceptance, then QRY0. -/
theorem queryStateRuns : Obligations.QueryStateRuns := by
  intro s e hu
  obtain ⟨-, hexec, -⟩ := acceptanceDispatches s hu
  obtain ⟨q, qs, hquery⟩ := serves_query e
    (s := { s with opr := 0, att := 0, resValid := false, upc := .qry0, ph := .issue }) rfl rfl
  exact ⟨_, hexec, _, hquery.serve_eq, sameMachine_iff.mpr ⟨q, qs, by rw [finish, goto, ← hu]⟩⟩

/-- Settles O39: ISC_DISABLE, then FIN1 if it succeeds. -/
theorem finalizeRuns : Obligations.FinalizeRuns := by
  intro s e rest hu
  obtain ⟨-, -, -, -, -, hexec, -⟩ := acceptanceDispatches s hu
  refine ⟨_, hexec, fun he => ?_, fun code he => ?_⟩
  · obtain ⟨q, qs, hwrite⟩ := serves_write (c := .iscDisable)
      (s := { s with opr := 4, att := 0, resValid := false, upc := .fin0, ph := .issue }) rfl rfl
      (.inr (.inr (.inr rfl))) he
    obtain ⟨q, qs, hend⟩ := serves_finalize_end { e with rsps := rest }
      (s := { s with
        opr := 4, att := 0, resValid := false, xfq := none, upc := .fin1, ph := .issue, port := q, stim := qs })
      rfl rfl
    exact ⟨_, (hwrite.trans hend).serve_eq, sameMachine_iff.mpr ⟨q, qs, by rw [finish, goto, advance, ← hu]⟩⟩
  · obtain ⟨q, qs, hfail⟩ := serves_failing_outside_rst (c := .iscDisable)
      (s := { s with opr := 4, att := 0, resValid := false, upc := .fin0, ph := .issue }) rfl rfl rfl
      (.issued _ rfl rfl (.inr (.inr (.inr rfl)))) he
    exact ⟨_, hfail.serve_eq, sameMachine_iff.mpr ⟨q, qs, by rw [finish, goto, ← hu]⟩⟩

end Sys2Proof.Machine

/-! PROOFS. The statements of 45_retry.md: attempts repeated after any failure while the bound allows (R251, R253), and
under a prompt environment RESET_RETRY and WRITE_INIT, which go on from their last attempt (R251, R252). -/

namespace Sys2Proof.Machine

/-! ### The end of an attempt under the retry control (45_retry.md R253) -/

/-- An error of a wrapped reset below the bound begins the next attempt. -/
theorem raiseError_of_retried {s : State} (hretries : retries s = true) (hlt : s.att + 1 < s.cfg.maxResetAttempts)
    (e : ResCode) (d : Word) : raiseError e d s =
      { s with phase := .failed, xfq := none, upc := .rst0, ph := .issue, att := s.att + 1 } := by
  rcases raiseError_cases e d s with ⟨-, -, heq⟩ | ⟨-, hle, -⟩ | ⟨hnot, -⟩
  · exact heq
  · omega
  · simp [hretries] at hnot

/-- The error of the last attempt that the bound allows ends the operation. -/
theorem raiseError_of_exhausted {s : State} (hretries : retries s = true) (hle : s.cfg.maxResetAttempts ≤ s.att + 1)
    (e : ResCode) (d : Word) : raiseError e d s = finish e d { s with phase := .failed, att := s.att + 1 } := by
  rcases raiseError_cases e d s with ⟨-, hlt, -⟩ | ⟨-, -, heq⟩ | ⟨hnot, -⟩
  · omega
  · exact heq
  · simp [hretries] at hnot

theorem Attempt.conclude_of_error {a : Attempt} {v : State} {x : ResCode × Word} (hx : a.error v.cfg = some x) :
    a.conclude v = raiseError x.1 x.2 v := by
  rw [Attempt.conclude, hx]

theorem Attempt.conclude_of_matched {a : Attempt} {v : State} (hmatch : a.error v.cfg = none) :
    a.conclude v = retOk (advance .identified v) := by
  rw [Attempt.conclude, hmatch]

theorem Attempt.conclude_opr (a : Attempt) (v : State) : (a.conclude v).opr = v.opr := by
  unfold Attempt.conclude
  split <;> simp

/-- Only an attempt that fails at RST1 can leave the line high (41_reset.md R170). -/
theorem Attempt.rstl_of_matched {a : Attempt} {c : Config} (hmatch : a.error c = none) : a.rstl c = false := by
  cases a with
  | activateFails code => simp [Attempt.error] at hmatch
  | enableFails | readFails | identity => rfl

/-! ### Attempts in a row (45_retry.md R251, R257) -/

/-- `s` after the failed attempts `fails`, in the two registers that the next attempt takes over: ATT counts them, and
IDR keeps what the last of their reads has written. -/
def afterFails (fails : List Attempt) (s : State) : State :=
  { s with att := s.att + fails.length, idr := fails.foldl Attempt.idr s.idr }

theorem uploadPartEq_trans {s t u : State} (h : UploadPartEq s t) (h' : UploadPartEq t u) : UploadPartEq s u := by
  simp_all [UploadPartEq]

/-- Of the state in which an attempt begins, only OPR, ATT, IDR and the registers that RST does not write show in the
state that decides it. -/
theorem Attempt.Decided.of_begin_eq {a : Attempt} {s t v : State} (h : a.Decided t v) (hopr : t.opr = s.opr)
    (hatt : t.att = s.att) (hidr : t.idr = s.idr) (hdata : UploadPartEq s t) : a.Decided s v where
  inRst := h.inRst
  matched hmatch := h.matched (hdata.1 ▸ hmatch)
  opr := h.opr.trans hopr
  att := h.att.trans hatt
  phase := h.phase
  loaded := h.loaded
  rstl := h.rstl.trans (by rw [hdata.1])
  idr := h.idr.trans (by rw [hidr])
  data := uploadPartEq_trans hdata h.data

theorem Attempt.Decided.retries_of_wrapped {a : Attempt} {s v : State} (h : a.Decided s v)
    (hop : s.opr = 5 ∨ s.opr = 6) : retries v = true :=
  (retries_iff v).mpr ⟨h.opr ▸ hop, h.inRst⟩

/-- The next attempt of the operation running in `s` begins in `t`, the attempt `a` having failed. -/
structure Attempt.Restarts (a : Attempt) (s t : State) : Prop where
  upc : t.upc = .rst0
  ph : t.ph = .issue
  opr : t.opr = s.opr
  att : t.att = s.att + 1
  idr : t.idr = a.idr s.idr
  data : UploadPartEq s t

/-- An attempt that fails below the bound is followed by another at once. -/
theorem serves_failed_attempt {a : Attempt} {rest : List Rsp} {e : Script} {s : State} (hu : s.upc = .rst0)
    (hp : s.ph = .issue) (hop : s.opr = 5 ∨ s.opr = 6) (hfits : a.fits s.cfg = true)
    (hfail : (a.error s.cfg).isSome = true) (hlt : s.att + 1 < s.cfg.maxResetAttempts)
    (he : e.rsps = a.rsps ++ rest) :
    ∃ t, a.Restarts s t ∧ Serves (a.steps s.cfg) e s (a.trace s.cfg) { e with rsps := rest } t := by
  obtain ⟨v, hv, hserves⟩ := serves_attempt hu hp hfits he
  obtain ⟨x, hx⟩ := Option.isSome_iff_exists.mp hfail
  obtain ⟨hcfg, -⟩ := hv.data
  rw [Attempt.conclude_of_error (hcfg ▸ hx),
    raiseError_of_retried (hv.retries_of_wrapped hop) (by rwa [← hcfg, hv.att])] at hserves
  refine ⟨_, ?_, hserves⟩
  constructor
  case upc | ph => simp
  case opr => simp [hv.opr]
  case att => simp [hv.att]
  case idr => simp [hv.idr]
  case data => simpa [UploadPartEq] using hv.data

/-- Attempts that fail are repeated, up to the one that decides the reset. -/
theorem serves_attempts {fails : List Attempt} {last : Attempt} {rest : List Rsp} {e : Script} {s : State}
    (hu : s.upc = .rst0) (hp : s.ph = .issue) (hop : s.opr = 5 ∨ s.opr = 6)
    (hfits : ∀ a ∈ fails ++ [last], a.fits s.cfg = true) (hfail : ∀ a ∈ fails, (a.error s.cfg).isSome = true)
    (hbound : s.att + fails.length < s.cfg.maxResetAttempts)
    (he : e.rsps = (fails ++ [last]).flatMap Attempt.rsps ++ rest) :
    ∃ v, last.Decided (afterFails fails s) v ∧
      Serves (((fails ++ [last]).map (Attempt.steps s.cfg)).sum) e s ((fails ++ [last]).flatMap (Attempt.trace s.cfg))
        { e with rsps := rest } (nextPort (last.conclude v)) := by
  induction fails generalizing e s with
  | nil =>
    obtain ⟨v, hv, hserves⟩ := serves_attempt hu hp (hfits last (by simp)) (by simpa using he)
    exact ⟨v, hv, by simpa using hserves⟩
  | cons a fails ih =>
    rw [List.length_cons] at hbound
    obtain ⟨t, ht, hfirst⟩ := serves_failed_attempt (rest := (fails ++ [last]).flatMap Attempt.rsps ++ rest) hu hp hop
      (hfits a (.head _)) (hfail a (.head _)) (by omega) (by simpa using he)
    have hcfg : s.cfg = t.cfg := ht.data.1
    have hatt := ht.att
    obtain ⟨v, hv, hrest⟩ := ih (e := { e with rsps := (fails ++ [last]).flatMap Attempt.rsps ++ rest }) ht.upc ht.ph
      (ht.opr ▸ hop) (fun b hb => hcfg ▸ hfits b (.tail _ hb)) (fun b hb => hcfg ▸ hfail b (.tail _ hb))
      (by rw [← hcfg]; omega) rfl
    refine ⟨v, hv.of_begin_eq ht.opr ?_ ?_ ht.data, ?_⟩
    · simp only [afterFails, List.length_cons]
      omega
    · simp [afterFails, ht.idr]
    · simpa [hcfg] using hfirst.trans hrest

/-- What the attempts `fails` and then `last`, begun in `s`, leave in `u` whether `last` has failed or not. -/
structure AttemptsLeave (fails : List Attempt) (last : Attempt) (s u : State) : Prop where
  opr : u.opr = s.opr
  loaded : u.loaded = false
  rstl : u.rstl = last.rstl s.cfg
  idr : u.idr = (fails ++ [last]).foldl Attempt.idr s.idr
  data : UploadPartEq s u

theorem Attempt.Decided.attemptsLeave {fails : List Attempt} {last : Attempt} {s v : State}
    (h : last.Decided (afterFails fails s) v) : AttemptsLeave fails last s (nextPort (last.conclude v)) := by
  have hkept := last.conclude_sameData v
  constructor
  case opr => simp [last.conclude_opr, h.opr, afterFails]
  case loaded => simp [hkept.loaded, h.loaded]
  case rstl => simp [hkept.rstl, h.rstl, afterFails]
  case idr => simp [hkept.idr, h.idr, afterFails]
  case data => simpa [UploadPartEq, afterFails] using hkept.uploadPartEq h.data

/-- When all the attempts that the bound allows have failed, the operation ends with the last error
(45_retry.md R256, R257). -/
theorem serves_exhausted {fails : List Attempt} {last : Attempt} {rest : List Rsp} {e : Script} {s : State}
    {x : ResCode × Word} (hu : s.upc = .rst0) (hp : s.ph = .issue) (hop : s.opr = 5 ∨ s.opr = 6) (hatt : s.att = 0)
    (hfits : ∀ a ∈ fails ++ [last], a.fits s.cfg = true) (hfail : ∀ a ∈ fails, (a.error s.cfg).isSome = true)
    (hx : last.error s.cfg = some x) (hbound : fails.length + 1 = s.cfg.maxResetAttempts)
    (he : e.rsps = (fails ++ [last]).flatMap Attempt.rsps ++ rest) :
    ∃ u, Serves (((fails ++ [last]).map (Attempt.steps s.cfg)).sum) e s
        ((fails ++ [last]).flatMap (Attempt.trace s.cfg)) { e with rsps := rest } u ∧
      EndedWith x.1 x.2 u ∧ u.phase = .failed ∧ u.att = fails.length + 1 ∧ AttemptsLeave fails last s u := by
  obtain ⟨v, hv, hserves⟩ := serves_attempts hu hp hop hfits hfail (by omega) he
  obtain ⟨hcfg, -⟩ := hv.data
  have hcount : v.att = fails.length := by simpa [afterFails, hatt] using hv.att
  have hreached : v.cfg.maxResetAttempts ≤ v.att + 1 := by
    rw [← hcfg, hcount]
    exact hbound.ge
  have hleave := hv.attemptsLeave
  rw [Attempt.conclude_of_error (hcfg ▸ hx),
    raiseError_of_exhausted (hv.retries_of_wrapped hop) hreached] at hserves hleave
  exact ⟨_, hserves, by simp [EndedWith], by simp, by simp [hcount], hleave⟩

/-! ### RESET_RETRY (45_retry.md R251) -/

/-- RESET_RETRY ends at the first attempt that succeeds. -/
theorem conclude_of_reset_retry_matched {a : Attempt} {v : State} (hop : v.opr = 5) (hmatch : a.error v.cfg = none) :
    a.conclude v = finish .ok 0 (advance .identified v) := by
  rw [Attempt.conclude_of_matched hmatch]
  exact if_neg fun h => by simp [hop] at h

/-- Settles O42: the attempts that RESET_RETRY begins, and the result of the last. -/
theorem resetRetryRuns : Obligations.ResetRetryRuns := by
  intro s e fails last rest hu hfits hfail hbound hlast he
  obtain ⟨-, -, -, -, -, -, hexec, -⟩ := acceptanceDispatches s hu
  refine ⟨_, hexec, ?_⟩
  cases hx : last.error s.cfg with
  | none =>
    obtain ⟨v, hv, hserves⟩ := serves_attempts
      (s := { s with opr := 5, att := 0, resValid := false, upc := .rst0, ph := .issue }) rfl rfl (.inl rfl) hfits hfail
      (by simpa using hbound) he
    obtain ⟨hcfg, -⟩ := hv.data
    have hleave := hv.attemptsLeave
    rw [conclude_of_reset_retry_matched hv.opr (hcfg ▸ hx)] at hserves hleave
    have hcount : v.att = fails.length := by simp [hv.att, afterFails]
    exact ⟨_, hserves.serve_eq, fun _ => ⟨by simp [EndedWith], by simp [hv.phase], by simp [hcount]⟩, nofun, hleave.opr,
      hleave.loaded, hleave.rstl, hleave.idr, hleave.data⟩
  | some x =>
    obtain ⟨u, hserves, hended, hphase, hcount, hleave⟩ := serves_exhausted
      (s := { s with opr := 5, att := 0, resValid := false, upc := .rst0, ph := .issue }) rfl rfl (.inl rfl) rfl hfits
      hfail hx (hlast.resolve_left (by simp [hx])) he
    refine ⟨u, hserves.serve_eq, nofun, fun y hy => ?_, hleave.opr, hleave.loaded, hleave.rstl, hleave.idr,
      hleave.data⟩
    obtain rfl := Option.some.inj hy
    exact ⟨hended, hphase, hcount⟩

/-! ### WRITE_INIT (45_retry.md R252) -/

/-- WRITE_INIT goes on to ERS0 from the first attempt that succeeds. -/
theorem conclude_of_write_init_matched {a : Attempt} {s v : State} (hv : a.Decided s v) (hop : s.opr = 6)
    (hmatch : a.error s.cfg = none) : a.conclude v = goto .ers0 (advance .identified v) := by
  obtain ⟨hcfg, -⟩ := hv.data
  rw [Attempt.conclude_of_matched (hcfg ▸ hmatch)]
  exact if_pos ⟨hv.opr.trans hop, hv.matched hmatch⟩

/-- Settles O43: the attempts that WRITE_INIT begins, and the erase run after the one that succeeds. -/
theorem writeInitRuns : Obligations.WriteInitRuns := by
  intro s e fails last r rest hu hfits hfail hbound
  obtain ⟨-, -, -, -, -, -, -, hexec⟩ := acceptanceDispatches s hu
  refine ⟨_, hexec, fun hmatch he => ?_, fun x hx hlast he => ?_⟩
  · obtain ⟨v, hv, hattempts⟩ := serves_attempts
      (s := { s with opr := 6, att := 0, resValid := false, upc := .rst0, ph := .issue }) rfl rfl (.inr rfl) hfits hfail
      (by simpa using hbound) he
    have hleave := hv.attemptsLeave
    rw [conclude_of_write_init_matched hv rfl hmatch] at hattempts hleave
    generalize hw : nextPort (goto .ers0 (advance .identified v)) = w at hattempts hleave
    have hphase : w.phase = .identified := by simp [← hw, hv.phase]
    have hcount : w.att = fails.length := by simp [← hw, hv.att, afterFails]
    have hcfg : w.cfg = s.cfg := hleave.data.1.symm
    obtain ⟨d, q, qs, herase⟩ := serves_eraseRun (e := { e with rsps := r.rsps ++ rest }) (s := w) (r := r)
      (rest := rest) (by simp [← hw]) (by simp [← hw]) rfl
    rw [hcfg] at herase
    exact ⟨_, (hattempts.trans herase).serve_eq, by simp [EraseRun.ended, EndedWith, hcfg],
      by simp [EraseRun.ended, hphase], hcount, hleave.opr, hleave.loaded,
      hleave.rstl.trans (Attempt.rstl_of_matched hmatch), hleave.idr, hleave.data⟩
  · obtain ⟨u, hserves, hended, hphase, hcount, hleave⟩ := serves_exhausted
      (s := { s with opr := 6, att := 0, resValid := false, upc := .rst0, ph := .issue }) rfl rfl (.inr rfl) rfl hfits
      hfail hx hlast he
    exact ⟨u, hserves.serve_eq, hended, hphase, hcount, hleave.opr, hleave.loaded, hleave.rstl, hleave.idr,
      hleave.data⟩

end Sys2Proof.Machine

/-! PROOFS. The statements of 60_exceptions.md: the answer that raises TRANSPORT (R271), taking an error (R280), and the
results with which an operation can end (R276). -/

namespace Sys2Proof.Machine

/-! ### Taking an error (60_exceptions.md R280, 45_retry.md R253) -/

/-- Settles O21: the three ways in which an error is taken. -/
theorem raiseAbortsOrRetries : Obligations.RaiseAbortsOrRetries := by
  intro e d s
  rw [← retries_iff]
  refine ⟨fun hretries hlt => ?retried, fun hretries hlast => ?exhausted, fun hnot => ?aborted⟩
  case retried => exact raiseError_of_retried hretries hlt e d
  case exhausted => exact raiseError_of_exhausted hretries (not_lt.mp hlast) e d
  case aborted => exact raiseError_of_not_retries (Bool.eq_false_of_not_eq_true hnot) e d

/-! ### The Transport answers with an error (60_exceptions.md R271, 41_reset.md R173) -/

theorem exec_of_error {s : State} {c : Cmd} {code : Nat} (hc : s.upc.cmd? = some c) (hp : s.ph = .wait)
    (hrsp : s.port.rsp = some (.err code)) :
    exec (Instr.ofCmd c) s = .next (raiseTransport code (answeredByError s)) := by
  obtain ⟨_, _, onErr, hexec, herr⟩ := exec_ofCmd_eq_transact hc
  rw [hexec, ← herr]
  simp [transact, hp, xferDone, hrsp]

/-- Whether the request was cleared before the error is taken makes no difference: the abort clears it. -/
theorem raiseError_of_cleared (e : ResCode) (d : Word) (s : State) :
    raiseError e d { s with xfq := none } = raiseError e d s := rfl

/-- Settles O22: the failing end of the address's transaction, in which the line is dealt with before the abort. -/
theorem transportErrorIsRaised : Obligations.TransportErrorIsRaised := by
  intro c s code hc hp hrsp
  refine ⟨?_, toNat_errDetail⟩
  rw [exec_of_error hc hp hrsp, raiseTransport_eq]
  exact congrArg _ (raiseError_of_cleared _ _
    { s with rstl := if s.upc = .rst1 ∧ s.cfg.rstOnAbort = .release then false else s.rstl })

/-! ### The result of each operation (60_exceptions.md R276) -/

theorem resValid_raiseError {v : State} {e : ResCode} {d : Word} (hu : (raiseError e d v).upc = .idle) :
    (raiseError e d v).resValid = true := by
  rcases raiseError_cases e d v with ⟨-, -, he⟩ | ⟨-, -, he⟩ | ⟨-, he⟩ <;> rw [he] at hu ⊢
  · cases hu
  · rfl
  · rfl

theorem resValid_retOk {v : State} (hu : (retOk v).upc = .idle) : (retOk v).resValid = true := by
  rcases retOk_cases v with ⟨-, -, he⟩ | ⟨-, he⟩ <;> rw [he] at hu ⊢
  · cases hu
  · rfl

/-- A running operation reaches IDLE only by its end, which shows a result (40_sequencer.md R148). -/
theorem Move.resValid_of_idle {s u : State} (hm : Move s u) (hrun : s.upc ≠ .idle) (hu : u.upc = .idle) :
    u.resValid = true := by
  cases hm with
  | stay | issued | initIssued | idIssued | statusIssued | burstIssued | delayLoaded | ticked => exact absurd hu hrun
  | accepted _ hidle => exact absurd hidle hrun
  | wrote c hc => exact absurd hu (Upc.next_ne_idle_of_cmd? hc)
  | delayDone n hn => exact absurd hu (Upc.next_ne_idle_of_delay? hn)
  | idRead _ hat | statusRead _ hat | lineUp hat | lineDown hat =>
    exact absurd hu (by simp [microRst0, microRst2, line, hat, Upc.next])
  | failed => exact resValid_raiseError (v := answeredByError s) hu
  | idChecked =>
    revert hu
    unfold microRst6
    split
    · exact resValid_retOk
    · exact resValid_raiseError
  | drawn =>
    revert hu
    unfold microUpl2
    split
    · exact nofun
    · exact resValid_raiseError
  | doneChecked =>
    revert hu
    unfold microUpl5
    split
    · exact resValid_retOk
    · exact resValid_raiseError
  | eraseEnded | finalEnded => exact resValid_retOk hu
  | queried => rfl

theorem Transfer.opr_eq {s u : State} (ht : Transfer s u) (hrun : s.upc ≠ .idle) : u.opr = s.opr := by
  cases ht with
  | kept _ hop | next _ _ hop | ended _ _ hop | toErase _ _ _ hop => exact hop.opr
  | accepted hidle | reserved hidle => exact absurd hidle hrun
  | retried _ _ _ _ hopr | exhausted _ _ _ hopr => exact hopr

/-- The column OK of the table. -/
theorem mayEnd_ok_iff (op : BitVec 3) : mayEnd op .ok = true ↔ op ≠ 7 := by
  revert op
  decide

/-- The column TRANSPORT of the table. -/
theorem mayEnd_transport_iff (op : BitVec 3) : mayEnd op .transport = true ↔ op ≠ 0 ∧ op ≠ 7 := by
  revert op
  decide

/-- The reserved code runs no routine (30_encoding.md R91). -/
theorem ne_seven_of_mem_runBy {op : BitVec 3} {u : Upc} (hrun : u ≠ .idle) (h : op ∈ u.runBy) : op ≠ 7 := by
  rintro rfl
  revert hrun h
  cases u <;> decide

/-- A result that the routine at UPC can end with is in the row of each operation that runs the routine. -/
theorem EndsWith.mayEnd {s : State} {op : BitVec 3} {code : ResCode} {d : Word} (h : EndsWith s code d)
    (hrun : s.upc ≠ .idle) (hop : op ∈ s.upc.runBy) : mayEnd op code = true := by
  have hreserved := ne_seven_of_mem_runBy hrun hop
  cases h with
  | done | queried => exact (mayEnd_ok_iff op).mpr hreserved
  | transport code hc =>
    have hquery : s.upc ≠ .qry0 := by
      intro hat
      simp [hat, Upc.cmd?] at hc
    exact (mayEnd_transport_iff op).mpr ⟨mt (opr_eq_zero_iff hrun hop).mp hquery, hreserved⟩
  | identity hat =>
    rw [hat] at hop
    revert op
    decide
  | incomplete hat | noBuffer hat =>
    rw [hat] at hop
    obtain rfl := List.mem_singleton.mp hop
    rfl

/-- Settles O48: the end of the operation says its result, and OPR belongs to the routine that ends. -/
theorem resultsPerOperation : Obligations.ResultsPerOperation := by
  rintro s t ⟨-, hruns, -⟩ hrst hrun hs hidle
  obtain ⟨u, hm, rfl⟩ := step_move hs hrst
  simp only [nextPort_upc, nextPort_resValid, nextPort_opr, nextPort_resCode] at hidle ⊢
  exact ⟨hm.resValid_of_idle hrun hidle, hm.transfer.opr_eq hrun, (hm.endsWith hrun hidle).mayEnd hrun hruns⟩

end Sys2Proof.Machine

/-! PROOFS. The statement of 70_reset_and_hazards.md: `hw_rst` in any state (R310, R311). -/

namespace Sys2Proof.Machine

/-! ### The output ports that depend on the control state (10_state.md R34) -/

@[simp] theorem State.opReady_eq_true_iff (s : State) : s.opReady = true ↔ s.upc = .idle :=
  decide_eq_true_iff

@[simp] theorem State.xfReqValid_eq_false_iff (s : State) : s.xfReqValid = false ↔ s.xfq = none :=
  Option.isSome_eq_false_iff.trans Option.isNone_iff_eq_none

/-! ### Hardware reset (70_reset_and_hazards.md R310, R311) -/

/-- Settles O35: the step under `hw_rst` reads nothing of the state but its parameters and inputs, and moving the inputs
on touches no output or control register, so these hold the values that the reset state has (O36). -/
theorem hardwareResetFromAnyState : Obligations.HardwareResetFromAnyState := by
  intro s hrst
  obtain ⟨hupc, hph, hxfq, hrstl, hvalid, hcode, hdetail, hloaded, hphase, -⟩ := resetStateValues
  refine ⟨nextPort (hwReset s), step_hwRst hrst, ?_⟩
  simp [hupc, hph, hxfq, hrstl, hvalid, hcode, hdetail, hloaded, hphase]

end Sys2Proof.Machine
